-- ==== Sys2Proof/Word.lean ====
section
/-! DEFINITION. The words, bytes, pin levels and coordinates every other file names (00_scope.md R5, R9). -/

namespace Sys2Proof

/-- A command, response or key-map byte, `b[7:0]` (30_encoding.md R52). -/
abbrev Byte := BitVec 8

/-- A CLOCK value: CLOCK_W = 32 bits (00_scope.md R5, 10_state.md R13). `+` and `-` are the spec's `+32` and `-32` (R9). -/
abbrev Word := BitVec 32

/-- A pin level (00_scope.md R9). "Active" means LOW for every line of the block. -/
inductive Level where
  | low
  | high
  deriving DecidableEq, Repr, Inhabited

/-- A column index, 0 to N_COL - 1 = 2 (00_scope.md R5). -/
abbrev Col := Fin 3

/-- A row index, 0 to N_ROW - 1 = 6 (00_scope.md R5). -/
abbrev Row := Fin 7

/-- A coordinate (c, r) of the keypad and of the VMC bus (00_scope.md section 7; 30_encoding.md R57: they share one system). -/
structure Coord where
  col : Col
  row : Row
  deriving DecidableEq, Repr, Inhabited

/-- A table addressed by coordinate, column first: `g[c][r]` (20_memory.md R40). -/
abbrev Grid (α : Type) := Vector (Vector α 7) 3

/-- The N_KEY = 21 coordinates in scan order (00_scope.md R5, 40_sequencer.md R65). -/
def allCoords : List Coord :=
  (List.finRange 3).flatMap fun c => (List.finRange 7).map fun r => ⟨c, r⟩

end Sys2Proof
end

