-- ==== Sys2Proof/Config.lean ====
section
/-! DEFINITION. What an implementation fixes and the spec leaves open: the parameters of 00_scope.md R6, the
environment's choices (R7, R8), and the free values. A free value is an `opaque` constant with no body: no proof can
see what it is. -/

namespace Sys2Proof

/-- The bytes `'0'`..`'9'` (30_encoding.md R54). -/
def digitBytes : List Byte := [0x30, 0x31, 0x32, 0x33, 0x34, 0x35, 0x36, 0x37, 0x38, 0x39]

/-- The bytes `'a'`..`'l'` (30_encoding.md R54). -/
def letterBytes : List Byte := [0x61, 0x62, 0x63, 0x64, 0x65, 0x66, 0x67, 0x68, 0x69, 0x6A, 0x6B, 0x6C]

/-- The entries of a key map in scan order. -/
def keyBytesOf (rows : Grid Byte) : List Byte := rows.toList.flatMap Vector.toList

/-- 30_encoding.md R55: injective, values among the 22 listed bytes, every digit a value, `KEYMAP(1,3) = '5'`.
That 11 letters are values, that one is not, and that a column's 7 values are distinct, follow. -/
def keyRowsLegal (rows : Grid Byte) : Bool :=
  decide (keyBytesOf rows).Nodup
    && (keyBytesOf rows).all (fun b => (digitBytes ++ letterBytes).contains b)
    && digitBytes.all (fun b => (keyBytesOf rows).contains b)
    && rows[1][3] == 0x35

/-- A layout that satisfies R55. It only shows that one exists (a free value needs a non-empty type); the spec gives no
layout, and no definition of the machine reads this one. -/
def someKeyRows : Grid Byte :=
  #v[#v[0x30, 0x31, 0x32, 0x33, 0x34, 0x36, 0x37], #v[0x38, 0x39, 0x61, 0x35, 0x62, 0x63, 0x64],
     #v[0x65, 0x66, 0x67, 0x68, 0x69, 0x6A, 0x6B]]

/-- The parameter KEYMAP (00_scope.md R6, 10_state.md R16): any table that satisfies R55, carrying that fact. -/
structure KeyMap where
  rows : Grid Byte := someKeyRows
  legal : keyRowsLegal rows = true := by decide
  deriving DecidableEq, Repr, Inhabited

/-- The parameter CN_SRC (00_scope.md R6): exactly two of the three columns. -/
inductive CnSrc where
  | cols01
  | cols02
  | cols12
  deriving DecidableEq, Repr, Inhabited

/-- The parameter DEBOUNCE_CMP (00_scope.md R6, 41_matrix_scanner.md R74). -/
inductive DebounceCmp where
  | raw
  | wrapSafe
  deriving DecidableEq, Repr, Inhabited

/-- The durations of 00_scope.md R6, as whole numbers of one time unit that is left open; `tTick` is T_TICK's length
in that unit. The six pulse durations are positive and their sum is below T_TICK (R6); no order between them is
imposed (43_pulse_generator.md R95). DESIGN CHOICE (log 8): whole numbers. -/
structure Delays where
  tTick : Nat := 7
  tPre1 : Nat := 1
  tPre2 : Nat := 1
  tLow1 : Nat := 1
  tHigh : Nat := 1
  tExtra : Nat := 1
  tLow2 : Nat := 1
  tSettle : Nat := 0
  legal : (0 < tPre1 ∧ 0 < tPre2 ∧ 0 < tLow1 ∧ 0 < tHigh ∧ 0 < tExtra ∧ 0 < tLow2) ∧
    tPre1 + tPre2 + tLow1 + tHigh + tExtra + tLow2 < tTick := by decide
  deriving DecidableEq, Repr, Inhabited

/-- The parameters of 00_scope.md R6 other than KEYMAP (which 10_state.md R16 lists as state of its own). -/
structure Params where
  cnSrc : CnSrc
  debounceCmp : DebounceCmp
  svcTol : Nat
  delays : Delays
  deriving DecidableEq, Repr

/-- What sendByte answers (40_sequencer.md R66). The spec admits both readings of `error`: `dropped` says which. -/
inductive SendOutcome where
  | success
  | retryLater
  | error (dropped : Bool)
  deriving DecidableEq, Repr, Inhabited

/-- The choice of the next step: which agent moves and the data the environment gives it (00_scope.md R7, R8).
`main k` is MAIN's step, with `k` the levels of KP_ROW_IN[6:0] at that instant: the KEYPAD's draw, read by SCAN_ROW
only (41_matrix_scanner.md R73). -/
inductive Move where
  | main (kpRowIn : BitVec 7)
  | tick
  | pcn
  | hostRecv (b : Byte)
  | hostSend (outcome : SendOutcome)
  | bus (c : Col) (l : Level)
  deriving DecidableEq, Repr, Inhabited

/-- FREE VALUE: the content of KEYMAP (00_scope.md R6; log 1). -/
opaque Config.keyMap : KeyMap

/-- FREE VALUE: which two sense lines raise the pulse interrupt (00_scope.md R6; log 1). -/
opaque Config.cnSrc : CnSrc

/-- FREE VALUE: the durations of 00_scope.md R6 (log 1, log 8). -/
opaque Config.delays : Delays

/-- FREE VALUE: the levels of VMC_COL_SENSE[2:0] when the block leaves reset ("The environment chooses them",
10_state.md R32; log 5). -/
opaque Config.senseAtReset : BitVec 3

/-- FREE VALUE: the n-th move taken when no move is scheduled (00_scope.md R8: any enabled agent may be next; log 2). -/
opaque Config.freeMove : Nat → Move

/-- The parameters the machine of `State.reset` is built with: the free values, and the defaults RAW and 1 that
00_scope.md R6 states for DEBOUNCE_CMP and SVC_TOL (log 7). -/
def Config.params : Params :=
  { cnSrc := Config.cnSrc, debounceCmp := .raw, svcTol := 1, delays := Config.delays }

end Sys2Proof
end

