-- ==== Sys2Proof/Syntax.lean ====
section
/-! DEFINITION. The command set, one constructor per row of spec/opcode_table.json (30_encoding.md R52, R59). -/

namespace Sys2Proof

/-- A command. A SELECT row has no operand: its coordinate is not in the byte but comes from KEYMAP_INV
(30_encoding.md R52, R56). `ign` is the catch-all row, and its operand is the byte itself. -/
inductive Instr where
  | sel0
  | sel1
  | sel2
  | sel3
  | sel4
  | sel5
  | sel6
  | sel7
  | sel8
  | sel9
  | selA
  | selB
  | selC
  | selD
  | selE
  | selF
  | selG
  | selH
  | selI
  | selJ
  | selK
  | selL
  | svc
  | ign (b : Byte)
  deriving DecidableEq, Repr

end Sys2Proof
end

