-- ==== Sys2Proof/WellFormed.lean ====
section
/-! DEFINITION. Which terms of `Instr` are commands: the catch-all row matches only bytes no other row matches. -/

namespace Sys2Proof

/-- The bytes of the 23 rows of the table with a byte of their own: `'0'`..`'9'`, `'a'`..`'l'`, `'s'` (30_encoding.md R59). -/
def namedBytes : List Byte := digitBytes ++ letterBytes ++ [0x73]

/-- Every row but IGN is well formed as it stands; IGN's byte is one that no other row matches (opcode table, row IGN). -/
def Instr.wf : Instr → Bool
  | .ign b => !namedBytes.contains b
  | .sel0 | .sel1 | .sel2 | .sel3 | .sel4 | .sel5 | .sel6 | .sel7 | .sel8 | .sel9 => true
  | .selA | .selB | .selC | .selD | .selE | .selF | .selG | .selH | .selI | .selJ | .selK | .selL => true
  | .svc => true

end Sys2Proof
end

