-- ==== Sys2Proof/Decode.lean ====
section
/-! DEFINITION. Decoding a command byte by the opcode table, and the encoder written from the same table. -/

namespace Sys2Proof

/-- One row of the opcode table: it matches `b` when `b &&& mask = pat`; `instr` is the command it then stands for. -/
structure OpcodeRow where
  pat : Byte
  mask : Byte
  instr : Byte → Instr

/-- A row whose eight bits are all fixed. -/
def fixedRow (pat : Byte) (i : Instr) : OpcodeRow := ⟨pat, 0xFF, fun _ => i⟩

/-- The rows of the ten digits (spec/opcode_table.json, SEL_0 to SEL_9). -/
def digitRows : List OpcodeRow :=
  [fixedRow 0b00110000 .sel0, fixedRow 0b00110001 .sel1, fixedRow 0b00110010 .sel2, fixedRow 0b00110011 .sel3,
   fixedRow 0b00110100 .sel4, fixedRow 0b00110101 .sel5, fixedRow 0b00110110 .sel6, fixedRow 0b00110111 .sel7,
   fixedRow 0b00111000 .sel8, fixedRow 0b00111001 .sel9]

/-- The rows of the twelve letters (spec/opcode_table.json, SEL_a to SEL_l). Which of them is RESERVED is a matter of
KEYMAP, so the meaning decides it and the decoder does not (30_encoding.md R58; log 6). -/
def letterRows : List OpcodeRow :=
  [fixedRow 0b01100001 .selA, fixedRow 0b01100010 .selB, fixedRow 0b01100011 .selC, fixedRow 0b01100100 .selD,
   fixedRow 0b01100101 .selE, fixedRow 0b01100110 .selF, fixedRow 0b01100111 .selG, fixedRow 0b01101000 .selH,
   fixedRow 0b01101001 .selI, fixedRow 0b01101010 .selJ, fixedRow 0b01101011 .selK, fixedRow 0b01101100 .selL]

/-- The opcode table in priority order; IGN, the catch-all, is last (spec/opcode_table.json, note of row IGN). -/
def opcodeTable : List OpcodeRow :=
  digitRows ++ letterRows ++ [fixedRow 0b01110011 .svc, ⟨0x00, 0x00, fun b => .ign b⟩]

/-- The first row of `rows` that matches `b`; IGN where none does. -/
def lookupRow (rows : List OpcodeRow) (b : Byte) : Instr :=
  match rows with
  | [] => .ign b
  | row :: rest => if b &&& row.mask = row.pat then row.instr b else lookupRow rest b

/-- The command a byte stands for. No byte is illegal (30_encoding.md R60). -/
def decodeByte (b : Byte) : Instr := lookupRow opcodeTable b

/-- Why a list of bytes holds no command: there is no byte to take. -/
inductive DecodeReject where
  | noByte
  deriving DecidableEq, Repr

/-- The command at the head of a byte stream, and the bytes after it: every command is one byte (30_encoding.md R53). -/
def decode : List Byte → Except DecodeReject (Instr × List Byte)
  | [] => .error .noByte
  | b :: rest => .ok (decodeByte b, rest)

/-- The byte of a command (spec/opcode_table.json, column "match"). -/
def encodeByte : Instr → Byte
  | .sel0 => 0x30
  | .sel1 => 0x31
  | .sel2 => 0x32
  | .sel3 => 0x33
  | .sel4 => 0x34
  | .sel5 => 0x35
  | .sel6 => 0x36
  | .sel7 => 0x37
  | .sel8 => 0x38
  | .sel9 => 0x39
  | .selA => 0x61
  | .selB => 0x62
  | .selC => 0x63
  | .selD => 0x64
  | .selE => 0x65
  | .selF => 0x66
  | .selG => 0x67
  | .selH => 0x68
  | .selI => 0x69
  | .selJ => 0x6A
  | .selK => 0x6B
  | .selL => 0x6C
  | .svc => 0x73
  | .ign b => b

/-- A command as the bytes the host sends. -/
def encode (i : Instr) : List Byte := [encodeByte i]

/-- The byte of a table word of `nbits` bits: bits above `nbits` are 0. -/
def tableByte (nbits w : Nat) : Byte := BitVec.ofNat 8 (w % 2 ^ nbits)

/-- The command the decoder reads from a table word; a word longer than the one byte of a command is none. -/
def decodeTableWord (nbits w : Nat) : Option Instr :=
  if 8 < nbits then none
  else
    match decode [tableByte nbits w] with
    | .ok (i, _) => some i
    | .error _ => none

end Sys2Proof
end

