-- ==== Sys2Proof/Machine/State.lean ====
section
/-! DEFINITION. Everything the spec gives the machine, as plain data (10_state.md R31, R32), and its value after reset. -/

namespace Sys2Proof.Machine

/-- A byte queue: its items, oldest first (10_state.md R26). The bound QCAP = 128 is an invariant, kept by `enq`. -/
abbrev Queue := List Byte

/-- MAIN's phase register PH (10_state.md R27). -/
inductive Phase where
  | xfer
  | scanDrive (c : Col)
  | scanRow (c : Col) (r : Row)
  | scanRelease (c : Col)
  | decode
  | ack
  | svcWait
  deriving DecidableEq, Repr

/-- ARM: the pair of fields COL and ROW (10_state.md R17). `col = none` is NONE, encoded 3; ROW 7 does not exist, since
it "is never written". Its five bits are `armWord` (log 12). -/
structure Arm where
  col : Option Col
  row : Row
  deriving DecidableEq, Repr

/-- The service output latch SVC_OUT: 0 drives LOW, 1 leaves HIZ (10_state.md R25). -/
inductive SvcLine where
  | low
  | hiz
  deriving DecidableEq, Repr

/-- An event of BUS_OUT: `Pulse(col, row)`, standing for the waveform of 43_pulse_generator.md R96 (00_scope.md R10). -/
structure Pulse where
  col : Col
  row : Row
  deriving DecidableEq, Repr

/-- The events of SVC_OUT_T (00_scope.md R10). -/
inductive SvcEvent where
  | svcLow
  | svcRelease
  deriving DecidableEq, Repr

/-- The events of KP_OUT (00_scope.md R10). -/
inductive KpEvent where
  | colLow (c : Col)
  | colHigh (c : Col)
  deriving DecidableEq, Repr

/-- The machine. The fields up to `kpOut` are the spec's (10_state.md R32); `vmcColSense` is the BUS's input lines as BUS
last set them (R24); `params`, `schedule` and `freeMoves` are the model's own (log 1, log 2). -/
structure State where
  /-- CLOCK[31:0], R13. -/
  clock : Word
  /-- DL[c][r][31:0], R15. -/
  dl : Grid Word
  /-- ARM[4:0], R17. -/
  arm : Arm
  /-- KEYMAP[c][r][7:0], R16; read-only. -/
  keyMap : KeyMap
  /-- KP_COL_OUT[2:0], R21; bit c = 0 drives column c LOW. -/
  kpColOut : BitVec 3
  /-- VMC_ROW_OUT[6:0], R23; bit r = 0 is LOW, active. -/
  vmcRowOut : BitVec 7
  /-- SVC_OUT, R25. -/
  svcOut : SvcLine
  /-- CN_PENDING, R20. -/
  cnPending : Bool
  /-- H2D, host to device, R26. -/
  h2d : Queue
  /-- D2H, device to host, R26. -/
  d2h : Queue
  /-- PH, R27. -/
  ph : Phase
  /-- SVC_T0[31:0], R28. -/
  svcT0 : Word
  /-- The trace D2H_OUT (00_scope.md R10). -/
  d2hOut : List Byte
  /-- The trace BUS_OUT (00_scope.md R10). -/
  busOut : List Pulse
  /-- The trace SVC_OUT_T (00_scope.md R10). -/
  svcOutT : List SvcEvent
  /-- The trace KP_OUT (00_scope.md R10). -/
  kpOut : List KpEvent
  /-- VMC_COL_SENSE[2:0], R24; bit c = 0 is LOW: the bus scans column c. -/
  vmcColSense : BitVec 3
  /-- The parameters of 00_scope.md R6 other than KEYMAP; no step writes them. -/
  params : Params
  /-- The moves already chosen by the environment, the next one first. -/
  schedule : List Move
  /-- How many moves were drawn from the free value `Config.freeMove`. -/
  freeMoves : Nat
  deriving DecidableEq, Repr

/-- The one fault of the model (60_exceptions.md R102). -/
inductive Fault where
  /-- Raised by `deq` and `peek` on an empty queue (20_memory.md R36, R37). Safe: the source calls this undefined, and no
  rule of the block reaches it. -/
  | queueUnderflow
  deriving DecidableEq, Repr

/-- Why an instruction has no meaning. -/
inductive Refusal where
  /-- Raised by no arm of `exec`: every row of the opcode table has its meaning. Safe: the machine would only stop. -/
  | notModelled (mnemonic : String)
  deriving DecidableEq, Repr

/-- The state after the power-on reset (10_state.md R32, 70_reset_and_hazards.md R118). KEYMAP, the parameters and the
sense levels are free values (log 1, log 5); `schedule` and `freeMoves` start empty (log 2). -/
def State.reset : State where
  clock := 0
  dl := Vector.replicate 3 (Vector.replicate 7 0)
  arm := { col := none, row := 0 }
  keyMap := Config.keyMap
  kpColOut := 0b111
  vmcRowOut := 0b1111111
  svcOut := .hiz
  cnPending := false
  h2d := []
  d2h := []
  ph := .xfer
  svcT0 := 0
  d2hOut := []
  busOut := []
  svcOutT := []
  kpOut := []
  vmcColSense := Config.senseAtReset
  params := Config.params
  schedule := []
  freeMoves := 0

end Sys2Proof.Machine
end

