-- ==== Sys2Proof/Machine/Ops.lean ====
section
/-! DEFINITION. The named operations over the machine's stores and lines: the fixed sizes and times, the queue
primitives, the two tables, the line drivers, ARM's store, the phase register, and taking and leaving an interrupt. -/

namespace Sys2Proof.Machine

/-! Fixed sizes and times (00_scope.md R5). -/

/-- QCAP: the capacity of each queue in bytes. -/
def qCap : Nat := 128

/-- T_DEBOUNCE, in clock ticks. -/
def tDebounce : Word := 100

/-- T_SVC, in clock ticks. -/
def tSvc : Nat := 100

/-- ACK: the byte `'='` (30_encoding.md R54). -/
def ackByte : Byte := 0x3D

/-- SVC_CMD: the byte `'s'` (30_encoding.md R54). -/
def svcByte : Byte := 0x73

/-! The byte queues (20_memory.md R33 to R37). -/

/-- What Enq returns (R35). -/
inductive EnqResult where
  | ok
  | fail
  deriving DecidableEq, Repr

/-- Init (R33). -/
def qInit : Queue := []

/-- Count (R34). -/
def qCount (q : Queue) : Nat := q.length

/-- Empty (R34). -/
def qEmpty (q : Queue) : Bool := qCount q == 0

/-- Full (R34). -/
def qFull (q : Queue) : Bool := qCount q == qCap

/-- Enq (R35): a full queue rejects the byte and is unchanged. -/
def enq (q : Queue) (b : Byte) : EnqResult × Queue :=
  if qFull q then (.fail, q) else (.ok, q ++ [b])

/-- Enq as every caller of the block uses it: on FAIL the byte is dropped and nothing else follows (R35, 60_exceptions.md R101). -/
def enqDrop (q : Queue) (b : Byte) : Queue := (enq q b).2

/-- Deq (R36). -/
def deq : Queue → Except Fault (Byte × Queue)
  | [] => .error .queueUnderflow
  | b :: rest => .ok (b, rest)

/-- Peek (R37): the head, and the queue is not changed. -/
def peek : Queue → Except Fault Byte
  | [] => .error .queueUnderflow
  | b :: _ => .ok b

/-! The tables DL and KEYMAP (20_memory.md R40). -/

/-- `g[c][r]`. -/
def gridGet {α : Type} (g : Grid α) (p : Coord) : α := g[p.col][p.row]

/-- `g[c][r] <- v`. -/
def gridSet {α : Type} (g : Grid α) (p : Coord) (v : α) : Grid α :=
  g.set p.col (g[p.col].set p.row v)

/-! Lines (00_scope.md R9, 20_memory.md R44, 70_reset_and_hazards.md R129). -/

/-- `Drive(line, level)` on bit `i` of a latch: it changes that line only. -/
def driveLine {n : Nat} (latch : BitVec n) (i : Nat) : Level → BitVec n
  | .high => latch ||| BitVec.twoPow n i
  | .low => latch &&& ~~~BitVec.twoPow n i

/-- `Sense(line)`: the level of bit `i`; reading has no side effect (20_memory.md R45). -/
def senseLine {n : Nat} (lines : BitVec n) (i : Nat) : Level :=
  if lines.getLsbD i then .high else .low

/-- The bit of SVC_OUT (10_state.md R25). -/
def svcBit : SvcLine → BitVec 1
  | .low => 0
  | .hiz => 1

/-! ARM (10_state.md R17). -/

/-- The five bits of ARM: COL in bits 4:3, with 3 for NONE, and ROW in bits 2:0. -/
def armWord (a : Arm) : BitVec 5 :=
  (match a.col with
    | none => (3 : BitVec 2)
    | some c => BitVec.ofNat 2 c) ++ BitVec.ofNat 3 a.row

/-- `ARM <- (COL = c, ROW = r)`, one atomic store of both fields (42_command_decoder.md R84, 20_memory.md R44). -/
def armAt (p : Coord) (s : State) : State := { s with arm := { col := some p.col, row := p.row } }

/-- `ARM.COL <- NONE`; ROW keeps its value (43_pulse_generator.md R97). -/
def disarm (s : State) : State := { s with arm := { s.arm with col := none } }

/-! MAIN's registers. -/

/-- `Now()`: all 32 bits of CLOCK in one atomic read (10_state.md R14). -/
def now (s : State) : Word := s.clock

/-- `phase <- P` (00_scope.md R9). -/
def setPhase (p : Phase) (s : State) : State := { s with ph := p }

/-- Enq into D2H, the byte dropped if D2H is full. -/
def enqD2H (b : Byte) (s : State) : State := { s with d2h := enqDrop s.d2h b }

/-! Taking an interrupt and returning from one (60_exceptions.md R103 to R107). The block has no exception, no vector and
no saved register: taking an interrupt acknowledges its source and runs the handler, in one step. -/

/-- The two interrupt sources (R103). -/
inductive IrqSource where
  | clockTick
  | pinChange
  deriving DecidableEq, Repr

/-- Interrupt entry: what clears the source (R103), and nothing is saved (R106). The timer source keeps no flag in the block;
PCN entry clears CN_PENDING (43_pulse_generator.md R93). -/
def takeInterrupt : IrqSource → State → State
  | .clockTick, s => s
  | .pinChange, s => { s with cnPending := false }

/-- Return from a handler, at the end of its step: no state is restored, because none was saved (R107). -/
def returnFromInterrupt (s : State) : State := s

end Sys2Proof.Machine
end

