-- ==== Sys2Proof/Machine/Clock.lean ====
section
/-! DEFINITION. The 1 ms clock interrupt (60_exceptions.md R111). -/

namespace Sys2Proof.Machine

/-- The TICK handler: CLOCK + 1 modulo 2^32 (60_exceptions.md R111). -/
def tickHandler (s : State) : State := { s with clock := s.clock + 1 }

/-- The TICK step: entry, handler, return (60_exceptions.md R103, R106, R107). -/
def tick (s : State) : State := returnFromInterrupt (tickHandler (takeInterrupt .clockTick s))

end Sys2Proof.Machine
end

