-- ==== Sys2Proof/Machine/Ignore.lean ====
section
/-! DEFINITION. The class IGNORE: the meaning of IGN (42_command_decoder.md R88). -/

namespace Sys2Proof.Machine

/-- IGNORE inside DECODE: the byte is discarded (42_command_decoder.md R88). -/
def ignoreByte (s : State) : State := setPhase .xfer s

/-- IGN (42_command_decoder.md R88): the byte `b` is consumed with no effect. -/
def execIgn (_b : Byte) (s : State) : Host.Outcome State Fault Refusal := .next (ignoreByte s)

end Sys2Proof.Machine
end

