-- ==== Sys2Proof/Machine/Operands.lean ====
section
/-! DEFINITION. The operands of a command: the key map, its inverse, RESERVED, and the class of a byte
(30_encoding.md R55 to R59). -/

namespace Sys2Proof.Machine

/-- `KEYMAP[c][r]` (10_state.md R16). -/
def keyAt (km : KeyMap) (p : Coord) : Byte := gridGet km.rows p

/-- `KEYMAP_INV(b)` (30_encoding.md R56); `none` is NOTFOUND. -/
def keyMapInv (km : KeyMap) (b : Byte) : Option Coord := allCoords.find? fun p => keyAt km p == b

/-- RESERVED (00_scope.md R6): the letter of `'a'`..`'l'` that is not a KEYMAP value. -/
def reservedByte (km : KeyMap) : Option Byte := letterBytes.find? fun b => (keyMapInv km b).isNone

/-- The class of a command byte (30_encoding.md R58). -/
inductive CommandClass where
  | select (target : Coord)
  | service
  | ignore
  deriving DecidableEq, Repr

/-- `classify(b)`, its tests in the order of 30_encoding.md R58. -/
def classify (km : KeyMap) (b : Byte) : CommandClass :=
  if b = svcByte then .service
  else
    match keyMapInv km b with
    | some p => .select p
    | none => .ignore

end Sys2Proof.Machine
end

