-- ==== Sys2Proof/Machine/Select.lean ====
section
/-! DEFINITION. The class SELECT: the meanings of SEL_0 to SEL_9 and SEL_a to SEL_l, and the ACK step
(42_command_decoder.md R84, R85). -/

namespace Sys2Proof.Machine

/-- SELECT(c, r) inside DECODE (42_command_decoder.md R84). -/
def select (target : Coord) (s : State) : State := setPhase .ack (armAt target s)

/-- The meaning of a byte of a SELECT row: SELECT at KEYMAP_INV(b), and IGNORE for the one letter that KEYMAP_INV does not
find, RESERVED (30_encoding.md R58, R59). -/
def selectByte (b : Byte) (s : State) : State :=
  match keyMapInv s.keyMap b with
  | some target => select target s
  | none => ignoreByte s

/-- SEL_0 (42_command_decoder.md R84). -/
def execSel0 (s : State) : Host.Outcome State Fault Refusal := .next (selectByte 0x30 s)

/-- SEL_1 (R84). -/
def execSel1 (s : State) : Host.Outcome State Fault Refusal := .next (selectByte 0x31 s)

/-- SEL_2 (R84). -/
def execSel2 (s : State) : Host.Outcome State Fault Refusal := .next (selectByte 0x32 s)

/-- SEL_3 (R84). -/
def execSel3 (s : State) : Host.Outcome State Fault Refusal := .next (selectByte 0x33 s)

/-- SEL_4 (R84). -/
def execSel4 (s : State) : Host.Outcome State Fault Refusal := .next (selectByte 0x34 s)

/-- SEL_5 (R84): KEYMAP fixes its target, (1, 3) (30_encoding.md R55 item 6). -/
def execSel5 (s : State) : Host.Outcome State Fault Refusal := .next (selectByte 0x35 s)

/-- SEL_6 (R84). -/
def execSel6 (s : State) : Host.Outcome State Fault Refusal := .next (selectByte 0x36 s)

/-- SEL_7 (R84). -/
def execSel7 (s : State) : Host.Outcome State Fault Refusal := .next (selectByte 0x37 s)

/-- SEL_8 (R84). -/
def execSel8 (s : State) : Host.Outcome State Fault Refusal := .next (selectByte 0x38 s)

/-- SEL_9 (R84). -/
def execSel9 (s : State) : Host.Outcome State Fault Refusal := .next (selectByte 0x39 s)

/-- SEL_a (R84, or R88 if RESERVED). -/
def execSelA (s : State) : Host.Outcome State Fault Refusal := .next (selectByte 0x61 s)

/-- SEL_b (R84, or R88 if RESERVED). -/
def execSelB (s : State) : Host.Outcome State Fault Refusal := .next (selectByte 0x62 s)

/-- SEL_c (R84, or R88 if RESERVED). -/
def execSelC (s : State) : Host.Outcome State Fault Refusal := .next (selectByte 0x63 s)

/-- SEL_d (R84, or R88 if RESERVED). -/
def execSelD (s : State) : Host.Outcome State Fault Refusal := .next (selectByte 0x64 s)

/-- SEL_e (R84, or R88 if RESERVED). -/
def execSelE (s : State) : Host.Outcome State Fault Refusal := .next (selectByte 0x65 s)

/-- SEL_f (R84, or R88 if RESERVED). -/
def execSelF (s : State) : Host.Outcome State Fault Refusal := .next (selectByte 0x66 s)

/-- SEL_g (R84, or R88 if RESERVED). -/
def execSelG (s : State) : Host.Outcome State Fault Refusal := .next (selectByte 0x67 s)

/-- SEL_h (R84, or R88 if RESERVED). -/
def execSelH (s : State) : Host.Outcome State Fault Refusal := .next (selectByte 0x68 s)

/-- SEL_i (R84, or R88 if RESERVED). -/
def execSelI (s : State) : Host.Outcome State Fault Refusal := .next (selectByte 0x69 s)

/-- SEL_j (R84, or R88 if RESERVED). -/
def execSelJ (s : State) : Host.Outcome State Fault Refusal := .next (selectByte 0x6A s)

/-- SEL_k (R84, or R88 if RESERVED). -/
def execSelK (s : State) : Host.Outcome State Fault Refusal := .next (selectByte 0x6B s)

/-- SEL_l (R84, or R88 if RESERVED). -/
def execSelL (s : State) : Host.Outcome State Fault Refusal := .next (selectByte 0x6C s)

/-- ACK: enqueue `'='`, dropped if D2H is full; ARM is neither read nor written (42_command_decoder.md R85). -/
def acknowledge (s : State) : State := setPhase .xfer (enqD2H ackByte s)

end Sys2Proof.Machine
end

