-- ==== Sys2Proof/Machine/Flags.lean ====
section
/-! DEFINITION. The status flags (10_state.md R19) and every condition a step tests: idle or armed, the change
notification, the debounce comparison, the service wait. -/

namespace Sys2Proof.Machine

/-- `ARM.COL = NONE`: the pulse generator is idle (10_state.md R19). -/
def idle (s : State) : Bool := s.arm.col.isNone

/-- The pulse generator's FSM state as another agent can see it (10_state.md R18); PULSING exists only inside a PCN step. -/
inductive PulseFsm where
  | idle
  | armed (target : Coord)
  deriving DecidableEq, Repr

/-- The FSM state is a function of ARM (10_state.md R18). -/
def pulseFsm (s : State) : PulseFsm :=
  match s.arm.col with
  | none => .idle
  | some c => .armed ⟨c, s.arm.row⟩

/-- Is column `c` one of the two lines of CN_SRC (00_scope.md R6)? -/
def cnWatches : CnSrc → Col → Bool
  | .cols01, c => c != 2
  | .cols02, c => c != 1
  | .cols12, c => c != 0

/-- CN_PENDING after a BUS move that leaves line `c` at `l` (43_pulse_generator.md R92): a change of level, either way, on a
watched line sets it; changes coalesce; any other move keeps it. -/
def cnAfter (s : State) (c : Col) (l : Level) : Bool :=
  s.cnPending || (cnWatches s.params.cnSrc c && senseLine s.vmcColSense c != l)

/-- `accept(t, d)` (41_matrix_scanner.md R74). -/
def accept : DebounceCmp → Word → Word → Bool
  | .raw, t, d => decide (d.toNat < t.toNat)
  | .wrapSafe, t, d => decide (1 ≤ (t - d).toNat ∧ (t - d).toNat ≤ 2 ^ 31 - 1)

/-- The deadline after an acceptance at clock value `t` (41_matrix_scanner.md R75). -/
def newDeadline (t : Word) : Word := t + tDebounce

/-- The ticks since the service line was driven low, modulo 2^32 (42_command_decoder.md R87). -/
def svcElapsed (s : State) : Word := now s - s.svcT0

/-- Is SVC_WAIT's step enabled (42_command_decoder.md R87)? `tSvc - svcTol` is 0 where SVC_TOL exceeds T_SVC: the wait then
has no lower bound. -/
def svcDone (s : State) : Bool := decide (tSvc - s.params.svcTol ≤ (svcElapsed s).toNat)

end Sys2Proof.Machine
end

