-- ==== Sys2Proof/Machine/Service.lean ====
section
/-! DEFINITION. The class SERVICE: the meaning of SVC and the SVC_WAIT step (42_command_decoder.md R86, R87). -/

namespace Sys2Proof.Machine

/-- `Drive(SVC_OUT, l)` and `Emit(SVC_OUT_T, e)`. -/
def driveSvc (l : SvcLine) (e : SvcEvent) (s : State) : State := { s with svcOut := l, svcOutT := s.svcOutT ++ [e] }

/-- SERVICE inside DECODE (42_command_decoder.md R86). -/
def service (s : State) : State :=
  setPhase .svcWait { driveSvc .low .svcLow s with svcT0 := now s }

/-- SVC (42_command_decoder.md R86). -/
def execSvc (s : State) : Host.Outcome State Fault Refusal := .next (service s)

/-- SVC_WAIT, where it is enabled: release the service line (42_command_decoder.md R87). -/
def svcRelease (s : State) : State := setPhase .xfer (driveSvc .hiz .svcRelease s)

end Sys2Proof.Machine
end

