-- ==== Sys2Proof/Machine/Dispatch.lean ====
section
/-! DEFINITION. The meaning of every command, inside DECODE after its byte was removed (42_command_decoder.md R83). -/

namespace Sys2Proof.Machine

def exec (i : Instr) (s : State) : Host.Outcome State Fault Refusal :=
  match i with
  | .sel0 => Sys2Proof.Machine.execSel0 s
  | .sel1 => Sys2Proof.Machine.execSel1 s
  | .sel2 => Sys2Proof.Machine.execSel2 s
  | .sel3 => Sys2Proof.Machine.execSel3 s
  | .sel4 => Sys2Proof.Machine.execSel4 s
  | .sel5 => Sys2Proof.Machine.execSel5 s
  | .sel6 => Sys2Proof.Machine.execSel6 s
  | .sel7 => Sys2Proof.Machine.execSel7 s
  | .sel8 => Sys2Proof.Machine.execSel8 s
  | .sel9 => Sys2Proof.Machine.execSel9 s
  | .selA => Sys2Proof.Machine.execSelA s
  | .selB => Sys2Proof.Machine.execSelB s
  | .selC => Sys2Proof.Machine.execSelC s
  | .selD => Sys2Proof.Machine.execSelD s
  | .selE => Sys2Proof.Machine.execSelE s
  | .selF => Sys2Proof.Machine.execSelF s
  | .selG => Sys2Proof.Machine.execSelG s
  | .selH => Sys2Proof.Machine.execSelH s
  | .selI => Sys2Proof.Machine.execSelI s
  | .selJ => Sys2Proof.Machine.execSelJ s
  | .selK => Sys2Proof.Machine.execSelK s
  | .selL => Sys2Proof.Machine.execSelL s
  | .svc => Sys2Proof.Machine.execSvc s
  | .ign b => Sys2Proof.Machine.execIgn b s

end Sys2Proof.Machine
end

