-- ==== Sys2Proof/Machine/PulseGen.lean ====
section
/-! DEFINITION. The pulse generator: the BUS moves with the change-notification detector, the PCN interrupt, the pulse and
the waveform it stands for (43_pulse_generator.md). -/

namespace Sys2Proof.Machine

/-- A BUS move: line `c` takes level `l`, and the detector acts in the same step (43_pulse_generator.md R91, R92). -/
def busMove (c : Col) (l : Level) (s : State) : State :=
  { s with vmcColSense := driveLine s.vmcColSense c l, cnPending := cnAfter s c l }

/-- One act of a pulse on its row line (43_pulse_generator.md R95, R96). -/
inductive PulseAct where
  | delay (d : Nat)
  | drive (l : Level)
  deriving DecidableEq, Repr

/-- The acts of the pulse for column `col`, in order (43_pulse_generator.md R96, its pseudocode). -/
def pulseActs (d : Delays) (col : Col) : List PulseAct :=
  [.delay d.tPre1, .delay d.tPre2, .drive .low, .delay d.tLow1]
    ++ (if col.val < 2 then
          [.drive .high, .delay d.tHigh] ++ (if col.val = 0 then [.delay d.tExtra] else []) ++ [.drive .low]
        else [])
    ++ [.delay d.tLow2, .drive .high]

/-- A stretch of time at one level. -/
structure Segment where
  level : Level
  length : Nat
  deriving DecidableEq, Repr

/-- Time `d` at level `l` after `wave`: a stretch at the same level grows, another level starts a new one. -/
def extendWave (wave : List Segment) (l : Level) (d : Nat) : List Segment :=
  match wave with
  | [] => [⟨l, d⟩]
  | [x] => if x.level = l then [⟨l, x.length + d⟩] else [x, ⟨l, d⟩]
  | x :: y :: rest => x :: extendWave (y :: rest) l d

/-- A pulse under way: the row latch, and what its line has shown since the guard. -/
structure PulseRun where
  rowOut : BitVec 7
  wave : List Segment
  deriving DecidableEq, Repr

/-- One act on row line `row`: a delay changes no latch (43_pulse_generator.md R95); a drive changes that line only. -/
def pulseAct (row : Row) (run : PulseRun) : PulseAct → PulseRun
  | .delay d => { run with wave := extendWave run.wave (senseLine run.rowOut row) d }
  | .drive l => { run with rowOut := driveLine run.rowOut row l }

/-- The pulse on (col, row) from the latch value `rowOut`: PULSING, all inside one PCN step (10_state.md R18). -/
def runPulse (d : Delays) (p : Pulse) (rowOut : BitVec 7) : PulseRun :=
  (pulseActs d p.col).foldl (pulseAct p.row) { rowOut := rowOut, wave := [] }

/-- The waveform on VMC_ROW_OUT[row] that the event `p` of BUS_OUT stands for (43_pulse_generator.md R96, 00_scope.md R10):
from the guard to the last drive, which leaves the line HIGH. -/
def pulseWaveform (d : Delays) (p : Pulse) : List Segment := (runPulse d p 0b1111111).wave

/-- The pulse and its completion: the row line, the event, and the disarm (43_pulse_generator.md R96, R97). -/
def firePulse (p : Pulse) (s : State) : State :=
  disarm { s with
    vmcRowOut := (runPulse s.params.delays p s.vmcRowOut).rowOut
    busOut := s.busOut ++ [p] }

/-- The PCN guard on one atomic read of ARM, the sense line sampled now (43_pulse_generator.md R94): the pulse to drive. -/
def pcnGuard (s : State) : Option Pulse :=
  match s.arm.col with
  | none => none
  | some c =>
    match senseLine s.vmcColSense c with
    | .high => none
    | .low => some ⟨c, s.arm.row⟩

/-- The PCN handler after its entry (43_pulse_generator.md R94, R96, R97). -/
def pcnHandler (s : State) : State :=
  match pcnGuard s with
  | none => s
  | some p => firePulse p s

/-- The PCN step where CN_PENDING = 1 enables it: entry, handler, return (43_pulse_generator.md R93, 60_exceptions.md R106, R107). -/
def pcn (s : State) : State := returnFromInterrupt (pcnHandler (takeInterrupt .pinChange s))

/-- The reference bus's n-th move (43_pulse_generator.md R91): lines 0, 1, 2, 0, ... LOW one at a time, each HIGH again before
the next. It is the test vectors' bus, no constraint on BUS. -/
def referenceBus (n : Nat) : Move :=
  .bus ⟨n / 2 % 3, Nat.mod_lt _ (by decide)⟩ (if n % 2 = 0 then .low else .high)

end Sys2Proof.Machine
end

