-- ==== Sys2Proof/Machine/Scanner.lean ====
section
/-! DEFINITION. The matrix scanner's three MAIN steps and the reference keypad (41_matrix_scanner.md). -/

namespace Sys2Proof.Machine

/-- `Emit(KP_OUT, e)`. -/
def emitKp (e : KpEvent) (s : State) : State := { s with kpOut := s.kpOut ++ [e] }

/-- `Drive(KP_COL_OUT[c], l)`. -/
def driveKpCol (c : Col) (l : Level) (s : State) : State := { s with kpColOut := driveLine s.kpColOut c l }

/-- SCAN_DRIVE(c), the column driver (41_matrix_scanner.md R76). -/
def scanDrive (c : Col) (s : State) : State :=
  setPhase (.scanRow c 0) (emitKp (.colLow c) (driveKpCol c .low s))

/-- The phase after SCAN_ROW(c, r) (41_matrix_scanner.md R77, last two lines). -/
def afterRow (c : Col) (r : Row) : Phase :=
  if r.val < 6 then .scanRow c (r + 1) else .scanRelease c

/-- What an accepted press at `p` and clock value `t` does: the mapped byte into D2H, dropped if full, and the new deadline
even then (41_matrix_scanner.md R77, R75). -/
def acceptPress (p : Coord) (t : Word) (s : State) : State :=
  { enqD2H (keyAt s.keyMap p) s with dl := gridSet s.dl p (newDeadline t) }

/-- Press qualification of a row that reads `lvl` (41_matrix_scanner.md R77): the clock is sampled once, and only for LOW. -/
def qualifyPress (p : Coord) (lvl : Level) (s : State) : State :=
  match lvl with
  | .high => s
  | .low =>
    let t := now s
    if accept s.params.debounceCmp t (gridGet s.dl p) then acceptPress p t s else s

/-- SCAN_ROW(c, r) with KP_ROW_IN at the levels `kpRowIn` (41_matrix_scanner.md R77). -/
def scanRow (c : Col) (r : Row) (kpRowIn : BitVec 7) (s : State) : State :=
  setPhase (afterRow c r) (qualifyPress ⟨c, r⟩ (senseLine kpRowIn r) s)

/-- The phase after SCAN_RELEASE(c) (41_matrix_scanner.md R78). -/
def afterRelease (c : Col) : Phase :=
  if c.val < 2 then .scanDrive (c + 1) else .decode

/-- SCAN_RELEASE(c) (41_matrix_scanner.md R78). -/
def scanRelease (c : Col) (s : State) : State :=
  setPhase (afterRelease c) (emitKp (.colHigh c) (driveKpCol c .high s))

/-- The reference keypad with the set `pressed` of pressed coordinates: row r reads LOW iff some pressed key (c, r) has its
column driven LOW (41_matrix_scanner.md R73). It is the test vectors' keypad, no constraint on KEYPAD. -/
def referenceKeypad (pressed : List Coord) (kpColOut : BitVec 3) : BitVec 7 :=
  BitVec.ofFnLE fun r : Row => !pressed.any fun p => p.row == r && senseLine kpColOut p.col == .low

end Sys2Proof.Machine
end

