-- ==== Sys2Proof/Machine/Transport.lean ====
section
/-! DEFINITION. The HOST moves of phase XFER and MAIN's own XFER step (40_sequencer.md R66). -/

namespace Sys2Proof.Machine

/-- HostRecv(b): receiveByte() returned `b` (40_sequencer.md R66). -/
def hostRecv (b : Byte) (s : State) : State := { s with h2d := enqDrop s.h2d b }

/-- Deq(D2H), the removed byte `b` put at the end of D2H_OUT where it was sent. -/
def takeD2H (sent : Bool) (s : State) : Host.Outcome State Fault Refusal :=
  match deq s.d2h with
  | .error f => .fault f
  | .ok (b, rest) => .next { s with d2h := rest, d2hOut := if sent then s.d2hOut ++ [b] else s.d2hOut }

/-- HostSend(outcome) (40_sequencer.md R66): Peek, then as sendByte answers. Success removes the byte and sends it;
retry-later keeps it; error keeps it or loses it, both admitted (log 13). -/
def hostSend (outcome : SendOutcome) (s : State) : Host.Outcome State Fault Refusal :=
  match peek s.d2h with
  | .error f => .fault f
  | .ok _ =>
    match outcome with
    | .success => takeD2H true s
    | .retryLater => .next s
    | .error true => takeD2H false s
    | .error false => .next s

/-- MAIN's XFER step: the scan begins, and HOST has no move until the next XFER (40_sequencer.md R66). -/
def xfer (s : State) : State := setPhase (.scanDrive 0) s

end Sys2Proof.Machine
end

