-- ==== Sys2Proof/Machine/Agents.lean ====
section
/-! DEFINITION. The agents' steps (00_scope.md R7): MAIN's step in each phase, the DECODE step that takes a command from
H2D, which moves are enabled, and what each does. -/

namespace Sys2Proof.Machine

/-- The agents of 00_scope.md R7 whose moves these are. KEYPAD moves with MAIN: its levels stand in MAIN's move (log 4). -/
inductive Agent where
  | main
  | tick
  | pcn
  | host
  | bus
  deriving DecidableEq, Repr

/-- The agent that takes a move. -/
def agentOf : Move → Agent
  | .main _ => .main
  | .tick => .tick
  | .pcn => .pcn
  | .hostRecv _ | .hostSend _ => .host
  | .bus _ _ => .bus

/-- The two execution contexts (60_exceptions.md R109). -/
inductive Context where
  | mainContext
  | interruptContext
  deriving DecidableEq, Repr

/-- MAIN and the HOST moves it polls run in the main context, TICK and PCN in the interrupt context; BUS is outside the block
(60_exceptions.md R109). No context keeps state and none is left open between two steps. -/
def contextOf : Agent → Option Context
  | .main | .host => some .mainContext
  | .tick | .pcn => some .interruptContext
  | .bus => none

/-- DECODE, one atomic step (42_command_decoder.md R83): at most one byte, and none while the generator is armed. -/
def decodeStep (s : State) : Host.Outcome State Fault Refusal :=
  if qEmpty s.h2d || !idle s then .next (setPhase .xfer s)
  else
    match deq s.h2d with
    | .error f => .fault f
    | .ok (b, rest) => exec (decodeByte b) { s with h2d := rest }

/-- MAIN's step in its phase, with KP_ROW_IN at `kpRowIn` (40_sequencer.md R65). -/
def mainStep (kpRowIn : BitVec 7) (s : State) : Host.Outcome State Fault Refusal :=
  match s.ph with
  | .xfer => .next (xfer s)
  | .scanDrive c => .next (scanDrive c s)
  | .scanRow c r => .next (scanRow c r kpRowIn s)
  | .scanRelease c => .next (scanRelease c s)
  | .decode => decodeStep s
  | .ack => .next (acknowledge s)
  | .svcWait => .next (svcRelease s)

/-- MAIN has a step in every phase but SVC_WAIT, where it waits for TICK (40_sequencer.md R69, 42_command_decoder.md R87). -/
def mainEnabled (s : State) : Bool :=
  match s.ph with
  | .svcWait => svcDone s
  | .xfer | .scanDrive _ | .scanRow _ _ | .scanRelease _ | .decode | .ack => true

/-- Which moves are enabled (40_sequencer.md R66, R69; 43_pulse_generator.md R91, R93; 60_exceptions.md R104). -/
def enabled : Move → State → Bool
  | .main _, s => mainEnabled s
  | .tick, _ => true
  | .pcn, s => s.cnPending
  | .hostRecv _, s => s.ph == .xfer && !qFull s.h2d
  | .hostSend _, s => s.ph == .xfer && !qEmpty s.d2h
  | .bus _ _, _ => true

/-- What a move does where it is enabled. -/
def perform : Move → State → Host.Outcome State Fault Refusal
  | .main kpRowIn, s => mainStep kpRowIn s
  | .tick, s => .next (tick s)
  | .pcn, s => .next (pcn s)
  | .hostRecv b, s => .next (hostRecv b s)
  | .hostSend outcome, s => hostSend outcome s
  | .bus c l, s => .next (busMove c l s)

/-- A chosen move: performed where enabled; otherwise its agent has no step and nothing changes (log 3). In SVC_WAIT that is
one turn of MAIN's busy wait (60_exceptions.md R117). -/
def act (m : Move) (s : State) : Host.Outcome State Fault Refusal :=
  if enabled m s then perform m s else .next s

/-- The next move and the state without it: the head of the schedule, else the next free value (00_scope.md R8; log 2). -/
def nextMove (s : State) : Move × State :=
  match s.schedule with
  | m :: rest => (m, { s with schedule := rest })
  | [] => (Config.freeMove s.freeMoves, { s with freeMoves := s.freeMoves + 1 })

/-- The state in which the very next step is MAIN's DECODE of the command `b`: DECODE's phase and its precondition
(42_command_decoder.md R83), `b` at the head of H2D in place of what stood there, and MAIN scheduled. -/
def offerCommand (b : Byte) (s : State) : State :=
  { disarm (setPhase .decode s) with h2d := b :: s.h2d.tail, schedule := .main 0b1111111 :: s.schedule }

end Sys2Proof.Machine
end

