-- ==== Sys2Proof/Machine/Step.lean ====
section
/-! DEFINITION. One step of the machine, and the placing of a command where the next step takes it. -/

namespace Sys2Proof.Machine

/-- One step: the next move of the interleaving, taken (00_scope.md R7, R8). -/
def step (s : State) : Host.Outcome State Fault Refusal := act (nextMove s).1 (nextMove s).2

/-- `s` with a table word's command placed so that the very next step decodes and runs it (log 14). -/
def State.withFetchWord (s : State) (nbits w : Nat) : State := offerCommand (tableByte nbits w) s

end Sys2Proof.Machine
end

