-- ==== Sys2Proof/Safety.lean ====
section
/-! DEFINITION. What claims are stated in: runs of moves, the fairness assumptions of 40_sequencer.md R71, and the
invariant of the block's states. -/

namespace Sys2Proof.Machine

/-- The moves `ms` taken one after the other. -/
def runMoves : List Move → State → Host.Outcome State Fault Refusal
  | [], s => .next s
  | m :: ms, s =>
    match act m s with
    | .next t => runMoves ms t
    | .fault f => .fault f
    | .refused r => .refused r

/-- How many of the moves are TICK steps: a claim that counts milliseconds counts these (60_exceptions.md R112). -/
def tickCount (ms : List Move) : Nat := ms.count .tick

/-- An infinite run: the states `σ 0, σ 1, ...` with the move taken in each. No run ends (40_sequencer.md R72). -/
def IsRun (σ : Nat → State) (μ : Nat → Move) : Prop := ∀ n, act (μ n) (σ n) = .next (σ (n + 1))

/-- 40_sequencer.md R71 item 1: MAIN, whenever it has an enabled step, eventually takes it. -/
def FairMain (σ : Nat → State) (μ : Nat → Move) : Prop :=
  ∀ n, mainEnabled (σ n) = true → ∃ m, n ≤ m ∧ mainEnabled (σ m) = true ∧ agentOf (μ m) = .main

/-- 40_sequencer.md R71 item 2: TICK eventually takes a step, at every point of the run. -/
def FairTick (μ : Nat → Move) : Prop := ∀ n, ∃ m, n ≤ m ∧ μ m = .tick

/-- 40_sequencer.md R71 item 3: PCN, whenever CN_PENDING = 1, eventually takes its entry step. -/
def FairPcn (σ : Nat → State) (μ : Nat → Move) : Prop :=
  ∀ n, (σ n).cnPending = true → ∃ m, n ≤ m ∧ (σ m).cnPending = true ∧ μ m = .pcn

/-- The move `m` in `s` is MAIN's SCAN_ROW step at `p` accepting a press: the row reads LOW and the clock passes the deadline
(41_matrix_scanner.md R77). -/
def PressAccepted (m : Move) (s : State) (p : Coord) : Prop :=
  ∃ k, m = .main k ∧ s.ph = .scanRow p.col p.row ∧ senseLine k p.row = .low ∧
    accept s.params.debounceCmp s.clock (gridGet s.dl p) = true

/-- No TICK among the moves `ms` from `s` wraps CLOCK. -/
def NoClockWrap (ms : List Move) (s : State) : Prop := s.clock.toNat + tickCount ms < 2 ^ 32

/-- 1 while the pulse generator is armed, 0 while it is idle. -/
def armedCount (s : State) : Nat := if idle s then 0 else 1

/-- 1 for a step that performs SELECT: MAIN goes from DECODE to ACK (40_sequencer.md R65). -/
def selectCount (s t : State) : Nat := if s.ph = .decode ∧ t.ph = .ack then 1 else 0

/-- KP_COL_OUT in each phase: column c LOW from SCAN_DRIVE(c) to SCAN_RELEASE(c), all HIGH elsewhere (10_state.md R21,
41_matrix_scanner.md R76, R78). -/
def colsMatchPhase (s : State) : Prop :=
  match s.ph with
  | .scanRow c _ | .scanRelease c => s.kpColOut = driveLine 0b111 c .low
  | .xfer | .scanDrive _ | .decode | .ack | .svcWait => s.kpColOut = 0b111

/-- The events of SVC_OUT_T after `n` whole service pulses. -/
def wholePulses (n : Nat) : List SvcEvent := (List.replicate n [SvcEvent.svcLow, SvcEvent.svcRelease]).flatten

/-- The invariant of the block's states: what the rules say holds between any two steps. -/
structure BlockInv (s : State) : Prop where
  /-- H2D never exceeds QCAP (10_state.md R26). -/
  h2dBound : qCount s.h2d ≤ qCap
  /-- D2H never exceeds QCAP (10_state.md R26). -/
  d2hBound : qCount s.d2h ≤ qCap
  /-- Every VMC row is HIGH between steps (10_state.md R23). -/
  rowsAtRest : s.vmcRowOut = 0b1111111
  /-- The keypad columns follow the phase (10_state.md R21). -/
  cols : colsMatchPhase s
  /-- The service line is LOW exactly while the service wait lasts (42_command_decoder.md R86, R87). -/
  svcLine : s.svcOut = .low ↔ s.ph = .svcWait
  /-- Nothing is armed during the service wait (70_reset_and_hazards.md R124). -/
  svcIdle : s.ph = .svcWait → idle s = true
  /-- Only key bytes and `'='` enter D2H, and so D2H_OUT (30_encoding.md R61). -/
  responses : ∀ b ∈ s.d2h ++ s.d2hOut, b = ackByte ∨ ∃ p, keyAt s.keyMap p = b
  /-- SVC_OUT_T alternates SvcLow and SvcRelease, and ends in SvcLow exactly during the wait (R86, R87). -/
  svcTrace : ∃ n, s.svcOutT = wholePulses n ++ (if s.ph = .svcWait then [SvcEvent.svcLow] else [])

end Sys2Proof.Machine
end

