-- ==== Sys2Proof/Certificates/Slice0/Obligations.lean ====
section
/-! DEFINITION. The statements for the provers. Each docstring names the part of spec/ it formalises, and what in it is a
decision of the spec or a choice of the model. -/

open Sys2Proof Sys2Proof.Machine

/-- Reset puts every piece of state at the value of the reset table. Rests on 10_state.md section 7, the reset table;
92_eei_decisions.md D2, D5, D12, D16, D18, D22, D23, D28, D40. -/
def Obligations.ResetStateValues : Prop :=
  State.reset.clock = 0 ∧ (∀ p, gridGet State.reset.dl p = 0) ∧ State.reset.arm = { col := none, row := 0 } ∧
  State.reset.keyMap = Config.keyMap ∧ State.reset.kpColOut = 0b111 ∧ State.reset.vmcRowOut = 0b1111111 ∧
  State.reset.svcOut = .hiz ∧ State.reset.cnPending = false ∧ State.reset.h2d = [] ∧ State.reset.d2h = [] ∧
  State.reset.ph = .xfer ∧ State.reset.svcT0 = 0 ∧ State.reset.d2hOut = [] ∧ State.reset.busOut = [] ∧
  State.reset.svcOutT = [] ∧ State.reset.kpOut = [] ∧ State.reset.vmcColSense = Config.senseAtReset

/-- The invariant holds at reset. Rests on 10_state.md section 7; 70_reset_and_hazards.md section 1. -/
def Obligations.ResetMeetsBlockInv : Prop :=
  BlockInv State.reset

/-- Every step keeps the invariant of the block. Rests on 10_state.md sections 4 and 5; 41_matrix_scanner.md section 3;
42_command_decoder.md sections 1 and 2; 43_pulse_generator.md section 2; 30_encoding.md section 4. -/
def Obligations.StepKeepsBlockInv : Prop :=
  ∀ s t, BlockInv s → step s = .next t → BlockInv t

/-- No step faults or is refused. Rests on 60_exceptions.md section 1; 40_sequencer.md R72 (no state is final). The
model's choice, not the spec's (log 3): a chosen move that is not enabled leaves the state. -/
def Obligations.EveryStepAnswersNext : Prop :=
  ∀ s, ∃ t, step s = .next t

/-- A step runs the command the decoder reads. Rests on 42_command_decoder.md section 1; 30_encoding.md sections 1 and 3. -/
def Obligations.StepRunsDecodedCommand : Prop :=
  ∀ s k ms b q i, s.schedule = .main k :: ms → s.ph = .decode → s.arm.col = none → s.h2d = b :: q →
    decode [b] = .ok (i, []) → step s = exec i { s with schedule := ms, h2d := q }

/-- A step takes the scheduled move, or a free one. Rests on 00_scope.md section 5 (any enabled agent may take the next
step). -/
def Obligations.StepTakesNextMove : Prop :=
  (∀ s m ms, s.schedule = m :: ms → step s = act m { s with schedule := ms }) ∧
  (∀ s, s.schedule = [] → step s = act (Config.freeMove s.freeMoves) { s with freeMoves := s.freeMoves + 1 })

/-- Decoding an encoded command gives it back, and every byte is one command. Rests on 30_encoding.md sections 1 and 3;
opcode_table.json. -/
def Obligations.DecodeOfEncodeRoundTrip : Prop :=
  (∀ i : Instr, i.wf = true → ∀ rest, decode (encode i ++ rest) = .ok (i, rest)) ∧
  (∀ b, (decodeByte b).wf = true ∧ encode (decodeByte b) = [b])

/-- Sample bytes of each class decode to their commands. Rests on opcode_table.json; 30_encoding.md section 1. -/
def Obligations.TableBytesDecode : Prop :=
  decodeByte 0b00110000 = .sel0 ∧ decodeByte 0b00110101 = .sel5 ∧ decodeByte 0b00111001 = .sel9 ∧
  decodeByte 0b01100001 = .selA ∧ decodeByte 0b01101100 = .selL ∧ decodeByte 0b01110011 = .svc ∧
  decodeByte 0b00111101 = .ign 0x3D ∧ decodeByte 0b01010011 = .ign 0x53 ∧ decodeByte 0b01000001 = .ign 0x41

/-- classify: 's' is SERVICE, a key byte is SELECT at its coordinate, all else IGNORE. Formalises R58. -/
def Obligations.ClassifyTestsNeverBothMatch : Prop :=
  ∀ km b, (classify km b = .service ↔ b = 0x73) ∧ (∀ p, classify km b = .select p ↔ keyMapInv km b = some p) ∧
    (classify km b = .ignore ↔ b ≠ 0x73 ∧ keyMapInv km b = none) ∧ keyMapInv km 0x73 = none

/-- A key map is injective, within the 22 listed bytes, holds all digits, misses one letter. Rests on 30_encoding.md
section 2; 92_eei_decisions.md D8, D9, D10. -/
def Obligations.KeyMapConstraints : Prop :=
  ∀ km, (∀ p q, keyAt km p = keyAt km q → p = q) ∧ (∀ p, keyAt km p ∈ digitBytes ++ letterBytes) ∧
    (∀ b ∈ digitBytes, ∃ p, keyAt km p = b) ∧ (∃! b, b ∈ letterBytes ∧ ∀ p, keyAt km p ≠ b) ∧
    keyAt km ⟨1, 3⟩ = 0x35

/-- KEYMAP_INV returns the coordinate of the byte, if one exists, and NOTFOUND otherwise. Formalises R56. -/
def Obligations.KeyMapInverseFindsExactly : Prop :=
  ∀ km b, (∀ p, keyMapInv km b = some p ↔ keyAt km p = b) ∧ (keyMapInv km b = none ↔ ∀ p, keyAt km p ≠ b) ∧
    (∀ p q, keyAt km p = b → keyAt km q = b → p = q) ∧
    (∀ s p, s.keyMap = km → keyMapInv km b = some p →
      exec (decodeByte b) s = .next { s with arm := { col := some p.col, row := p.row }, ph := .ack })

/-- The byte a key press emits is the command that arms the same coordinate. Rests on 30_encoding.md section 2 (the round
trip); 42_command_decoder.md section 2. -/
def Obligations.KeyByteArmsItsCoordinate : Prop :=
  ∀ s p, exec (decodeByte (keyAt s.keyMap p)) s =
    .next { s with arm := { col := some p.col, row := p.row }, ph := .ack }

/-- The classes of the 256 bytes: 10 digits, 11 letters, one reserved letter, s, and 233 others. Rests on 30_encoding.md
section 3; 92_eei_decisions.md D9, D11, D39. -/
def Obligations.ByteClassesPartition : Prop :=
  ∀ km, (∀ b ∈ digitBytes, ∃ p, classify km b = .select p) ∧
    (∃ r ∈ letterBytes, reservedByte km = some r ∧ classify km r = .ignore ∧
      ∀ b ∈ letterBytes, b ≠ r → ∃ p, classify km b = .select p) ∧
    classify km 0x73 = .service ∧ (∀ b, b ∉ namedBytes → classify km b = .ignore) ∧
    ((List.finRange 256).filter fun n => !namedBytes.contains (BitVec.ofFin n)).length = 233

/-- No byte is illegal; an IGNORE byte has no effect but its consumption. Formalises R60. -/
def Obligations.NoByteStops : Prop :=
  ∀ b s, (∃ t, exec (decodeByte b) s = .next t ∧ (t.ph = .xfer ∨ t.ph = .ack ∨ t.ph = .svcWait)) ∧
    (classify s.keyMap b = .ignore → exec (decodeByte b) s = .next { s with ph := .xfer }) ∧
    (reservedByte s.keyMap = some b → classify s.keyMap b = .ignore)

/-- SEL_0 to SEL_9 arm the coordinate of their digit and go to ACK. Rests on 42_command_decoder.md section 2 (SELECT);
30_encoding.md section 2; 92_eei_decisions.md D9, D14, D15. -/
def Obligations.DigitCommandsArm : Prop :=
  ∀ i b, (i, b) ∈ [(Instr.sel0, (0x30 : Byte)), (.sel1, 0x31), (.sel2, 0x32), (.sel3, 0x33), (.sel4, 0x34),
      (.sel5, 0x35), (.sel6, 0x36), (.sel7, 0x37), (.sel8, 0x38), (.sel9, 0x39)] →
    ∀ s, ∃ p, keyAt s.keyMap p = b ∧ exec i s = .next { s with arm := { col := some p.col, row := p.row }, ph := .ack }

/-- SEL_a to SEL_l arm the coordinate of their letter; the reserved letter is ignored. Rests on 42_command_decoder.md
section 2 (SELECT, IGNORE); 30_encoding.md sections 2 and 3; 92_eei_decisions.md D9. -/
def Obligations.LetterCommandsArmOrIgnore : Prop :=
  ∀ i b, (i, b) ∈ [(Instr.selA, (0x61 : Byte)), (.selB, 0x62), (.selC, 0x63), (.selD, 0x64), (.selE, 0x65),
      (.selF, 0x66), (.selG, 0x67), (.selH, 0x68), (.selI, 0x69), (.selJ, 0x6A), (.selK, 0x6B), (.selL, 0x6C)] →
    ∀ s, (∀ p, keyAt s.keyMap p = b →
        exec i s = .next { s with arm := { col := some p.col, row := p.row }, ph := .ack }) ∧
      ((∀ p, keyAt s.keyMap p ≠ b) → exec i s = .next { s with ph := .xfer })

/-- '5' arms (1, 3), ARM[4:0] = 0b01011, whatever the key map. Rests on 42_command_decoder.md section 2, the example of
SELECT; 30_encoding.md section 2 item 6; 92_eei_decisions.md D10, D40. -/
def Obligations.FiveArmsColumnOneRowThree : Prop :=
  ∀ s, exec .sel5 s = .next { s with arm := { col := some 1, row := 3 }, ph := .ack } ∧
    armWord { col := some 1, row := 3 } = 0b01011

/-- SVC drives the service line LOW, records the clock and waits. Rests on 42_command_decoder.md sections 1 and 2 (DECODE,
SERVICE, SVC_WAIT). The model's choice, not the spec's (log 3): a MAIN move before the wait is over leaves the state. -/
def Obligations.ServiceCommandEffect : Prop :=
  (∀ s, exec .svc s =
    .next { s with svcOut := .low, svcOutT := s.svcOutT ++ [.svcLow], svcT0 := s.clock, ph := .svcWait }) ∧
  (∀ k s q, s.ph = .decode → s.h2d = 0x73 :: q →
    (s.arm.col = none → act (.main k) s = .next { s with
      h2d := q, svcOut := .low, svcOutT := s.svcOutT ++ [.svcLow], svcT0 := s.clock, ph := .svcWait }) ∧
    (s.arm.col ≠ none → act (.main k) s = .next { s with ph := .xfer })) ∧
  (∀ k s, s.ph = .svcWait → act (.main k) s = .next s ∨
    act (.main k) s = .next { s with svcOut := .hiz, svcOutT := s.svcOutT ++ [.svcRelease], ph := .xfer })

/-- IGN, and every byte classified IGNORE, discards the byte and nothing else. Formalises R88. -/
def Obligations.IgnoreCommandEffect : Prop :=
  (∀ b s, exec (.ign b) s = .next { s with ph := .xfer }) ∧
  (∀ b s, classify s.keyMap b = .ignore → exec (decodeByte b) s = .next { s with ph := .xfer }) ∧
  (∀ km, ∀ b ∈ [(0x3D : Byte), 0x53, 0x41, 0x42, 0x43, 0x44, 0x45, 0x46, 0x47, 0x48, 0x49, 0x4A, 0x4B, 0x4C, 0x00, 0xFF],
    classify km b = .ignore) ∧
  (∀ km b, reservedByte km = some b → classify km b = .ignore)

/-- Enq appends the byte, or fails without mutating a full queue. Formalises R35. -/
def Obligations.EnqRejectsWhenFull : Prop :=
  ∀ q b, (q.length = 128 → enq q b = (.fail, q) ∧ enqDrop q b = q) ∧
    (q.length ≠ 128 → enq q b = (.ok, q ++ [b]) ∧ enqDrop q b = q ++ [b])

/-- Count, Empty, Full, Deq and Peek. Rests on 20_memory.md section 1; 92_eei_decisions.md D27. -/
def Obligations.QueueReadsAndRemoval : Prop :=
  (∀ q : Queue, qCount q = q.length ∧ (qEmpty q = true ↔ q.length = 0) ∧ (qFull q = true ↔ q.length = 128)) ∧
  (∀ b q, deq (b :: q) = .ok (b, q) ∧ peek (b :: q) = .ok b) ∧
  deq [] = .error .queueUnderflow ∧ peek [] = .error .queueUnderflow ∧ qInit = []

/-- A step takes a queue head or appends one byte, on one queue at most. Rests on 20_memory.md section 1 (FIFO order and
independence of the queues). The model's choice, not the spec's (log 3): a move that is not enabled changes neither
queue. -/
def Obligations.QueueStepsKeepFifo : Prop :=
  ∀ m s t, act m s = .next t →
    (t.h2d = s.h2d ∨ (∃ b, t.h2d = s.h2d ++ [b]) ∨ (∃ b, s.h2d = b :: t.h2d)) ∧
    (t.d2h = s.d2h ∨ (∃ b, t.d2h = s.d2h ++ [b]) ∨ (∃ b, s.d2h = b :: t.d2h)) ∧
    (t.h2d = s.h2d ∨ t.d2h = s.d2h) ∧ (s.d2h.length = 128 → ∀ b, t.d2h ≠ s.d2h ++ [b]) ∧
    (s.h2d.length = 128 → ∀ b, t.h2d ≠ s.h2d ++ [b])

/-- Over any run, the bytes sent and still queued only grow at the end. Rests on 20_memory.md section 1; 40_sequencer.md
(HOST moves); 92_eei_decisions.md D26. -/
def Obligations.SentBytesAreFifo : Prop :=
  ∀ ms s t, runMoves ms s = .next t → (∀ m ∈ ms, m ≠ .hostSend (.error true)) →
    s.d2hOut ++ s.d2h <+: t.d2hOut ++ t.d2h

/-- TICK adds 1 to CLOCK modulo 2^32 and changes nothing else. Rests on 60_exceptions.md section 4; 92_eei_decisions.md
D1. -/
def Obligations.TickAddsOne : Prop :=
  ∀ s, (∃ t, act .tick s = .next t ∧ t = { s with clock := t.clock } ∧
      t.clock.toNat = (s.clock.toNat + 1) % 2 ^ 32) ∧
    (s.clock = 0xFFFFFFFF → act .tick s = .next { s with clock := 0 })

/-- Over any run CLOCK advances by exactly the number of TICK steps. Rests on 10_state.md section 2; 60_exceptions.md
section 4. -/
def Obligations.ClockCountsTicks : Prop :=
  ∀ ms s t, runMoves ms s = .next t → t.clock = s.clock + BitVec.ofNat 32 (tickCount ms)

/-- SCAN_DRIVE(c) drives column c LOW, emits ColLow(c) and goes to row 0. Formalises R76. -/
def Obligations.ScanDriveEffect : Prop :=
  ∀ k s (c : Col), s.ph = .scanDrive c →
    (∃ t, act (.main k) s = .next t ∧ t.kpColOut.getLsbD c = false ∧
      (∀ j : Col, j ≠ c → t.kpColOut.getLsbD j = s.kpColOut.getLsbD j) ∧
      (s.kpColOut = 0b111 → ∀ j : Col, t.kpColOut.getLsbD j = false ↔ j = c) ∧
      t = { s with kpColOut := t.kpColOut, kpOut := s.kpOut ++ [.colLow c], ph := .scanRow c 0 }) ∧
    (c = 1 → s.kpColOut = 0b111 →
      act (.main k) s = .next { s with kpColOut := 0b101, kpOut := s.kpOut ++ [.colLow 1], ph := .scanRow 1 0 })

/-- SCAN_ROW(c, r): a LOW row past its deadline emits its byte and moves the deadline. Rests on 41_matrix_scanner.md
sections 2 and 3; 92_eei_decisions.md D4, D6, D7. -/
def Obligations.ScanRowEffect : Prop :=
  ∀ k s (c : Col) (r : Row) nxt, s.ph = .scanRow c r →
    ((∃ r' : Row, r'.val = r.val + 1 ∧ nxt = .scanRow c r') ∨ (r.val = 6 ∧ nxt = .scanRelease c)) →
    (k.getLsbD r = true → act (.main k) s = .next { s with ph := nxt }) ∧
    (accept s.params.debounceCmp s.clock (gridGet s.dl ⟨c, r⟩) = false → act (.main k) s = .next { s with ph := nxt }) ∧
    (k.getLsbD r = false → accept s.params.debounceCmp s.clock (gridGet s.dl ⟨c, r⟩) = true →
      ∃ t, act (.main k) s = .next t ∧ gridGet t.dl ⟨c, r⟩ = s.clock + 100 ∧
        (∀ p, p ≠ ⟨c, r⟩ → gridGet t.dl p = gridGet s.dl p) ∧
        t = { s with
          dl := t.dl
          d2h := if s.d2h.length = 128 then s.d2h else s.d2h ++ [keyAt s.keyMap ⟨c, r⟩]
          ph := nxt })

/-- SCAN_RELEASE(c) drives column c HIGH, emits ColHigh(c), then the next column or DECODE. Formalises R78. -/
def Obligations.ScanReleaseEffect : Prop :=
  (∀ k s (c : Col), s.ph = .scanRelease c →
    ∃ t, act (.main k) s = .next t ∧ t.kpColOut.getLsbD c = true ∧
      (∀ j : Col, j ≠ c → t.kpColOut.getLsbD j = s.kpColOut.getLsbD j) ∧
      t = { s with
        kpColOut := t.kpColOut
        kpOut := s.kpOut ++ [.colHigh c]
        ph := if c = 0 then .scanDrive 1 else if c = 1 then .scanDrive 2 else .decode } ∧
      (∀ j : Col, s.kpColOut = driveLine 0b111 c .low → t.kpColOut.getLsbD j = true)) ∧
  (∀ m s t, act m s = .next t → (∀ (c : Col) (r : Row), s.ph ≠ .scanDrive c ∧ s.ph ≠ .scanRow c r ∧ s.ph ≠ .scanRelease c) →
    t.kpColOut = s.kpColOut)

/-- The two forms of accept, where they agree, and the first accepted clock after a deadline. Rests on
41_matrix_scanner.md section 2; 92_eei_decisions.md D3, D4. -/
def Obligations.AcceptForms : Prop :=
  (∀ t d : Word, accept .raw t d = true ↔ d.toNat < t.toNat) ∧
  (∀ t d : Word, accept .wrapSafe t d = true ↔
    1 ≤ (t.toNat + 2 ^ 32 - d.toNat) % 2 ^ 32 ∧ (t.toNat + 2 ^ 32 - d.toNat) % 2 ^ 32 ≤ 2 ^ 31 - 1) ∧
  (∀ t d : Word, t.toNat ≤ 2 ^ 31 - 1 → d.toNat ≤ t.toNat → accept .raw t d = accept .wrapSafe t d) ∧
  (∀ t t0 : Word, t0.toNat + 100 < 2 ^ 32 → (accept .raw t (newDeadline t0) = true ↔ t0.toNat + 101 ≤ t.toNat))

/-- RAW misses or repeats presses at a wrap; WRAP_SAFE rejects stale deadlines instead. Rests on 70_reset_and_hazards.md
section 3 (wrap effects); 92_eei_decisions.md D3. -/
def Obligations.ClockWrapEffects : Prop :=
  (∀ t d : Word, t.toNat ≤ d.toNat → accept .raw t d = false) ∧
  (∀ t : Word, 2 ^ 32 - 100 ≤ t.toNat → (newDeadline t).toNat = t.toNat + 100 - 2 ^ 32 ∧
    ∀ t' : Word, t.toNat ≤ t'.toNat → accept .raw t' (newDeadline t) = true) ∧
  (∀ (t : Word) (n : Nat), n ≤ 100 → accept .wrapSafe (t + BitVec.ofNat 32 n) (newDeadline t) = false) ∧
  (∀ t d : Word, 2 ^ 31 ≤ (t - d).toNat → accept .wrapSafe t d = false)

/-- A deadline changes only at an accepted press of its coordinate. Rests on 10_state.md section 2; 41_matrix_scanner.md
section 3. -/
def Obligations.DeadlineMovesOnAcceptedPress : Prop :=
  ∀ m s t p, act m s = .next t → gridGet t.dl p ≠ gridGet s.dl p →
    PressAccepted m s p ∧ gridGet t.dl p = s.clock + 100

/-- Two accepted presses at one coordinate are at least 101 ticks apart. Rests on 41_matrix_scanner.md section 4;
95_test_vectors.md S2 property 1. -/
def Obligations.EmissionsAtLeast101TicksApart : Prop :=
  ∀ p m s u ms v m', PressAccepted m s p → act m s = .next u → runMoves ms u = .next v → PressAccepted m' v p →
    s.params.debounceCmp = .raw → s.clock.toNat + 100 < 2 ^ 32 → NoClockWrap ms u →
    s.clock.toNat + 101 ≤ v.clock.toNat

/-- DECODE takes one byte when idle, and none while armed or with H2D empty. Formalises R83. -/
def Obligations.DecodeStepEffect : Prop :=
  ∀ k s, s.ph = .decode →
    (s.h2d = [] ∨ s.arm.col ≠ none → act (.main k) s = .next { s with ph := .xfer }) ∧
    (∀ b q, s.h2d = b :: q → s.arm.col = none →
      (∀ p, classify s.keyMap b = .select p →
        act (.main k) s = .next { s with h2d := q, arm := { col := some p.col, row := p.row }, ph := .ack }) ∧
      (classify s.keyMap b = .service →
        act (.main k) s = .next { s with
          h2d := q, svcOut := .low, svcOutT := s.svcOutT ++ [.svcLow], svcT0 := s.clock, ph := .svcWait }) ∧
      (classify s.keyMap b = .ignore → act (.main k) s = .next { s with h2d := q, ph := .xfer }))

/-- ACK enqueues '=' unless D2H is full, and goes to XFER. Rests on 42_command_decoder.md section 2 (ACK);
92_eei_decisions.md D13. -/
def Obligations.AckEffect : Prop :=
  ∀ k s, s.ph = .ack → act (.main k) s =
    .next { s with d2h := if s.d2h.length = 128 then s.d2h else s.d2h ++ [0x3D], ph := .xfer }

/-- SVC_WAIT releases the service line once T_SVC - SVC_TOL ticks have elapsed. Rests on 42_command_decoder.md section 2
(SVC_WAIT); 92_eei_decisions.md D22. The model's choice, not the spec's (log 3): a MAIN move before the wait is over
leaves the state. -/
def Obligations.SvcWaitEffect : Prop :=
  ∀ k s, s.ph = .svcWait →
    (100 ≤ (s.clock - s.svcT0).toNat + s.params.svcTol →
      act (.main k) s = .next { s with svcOut := .hiz, svcOutT := s.svcOutT ++ [.svcRelease], ph := .xfer }) ∧
    ((s.clock - s.svcT0).toNat + s.params.svcTol < 100 → act (.main k) s = .next s)

/-- The service pulse lasts at least T_SVC - SVC_TOL ticks, and MAIN does nothing else meanwhile. Rests on
42_command_decoder.md section 2 (SERVICE, SVC_WAIT); 70_reset_and_hazards.md section 3 (the service stall);
92_eei_decisions.md D22. -/
def Obligations.ServiceWaitFreezesMain : Prop :=
  ∀ ms s t, s.ph = .svcWait → s.svcT0 = s.clock → s.arm.col = none → runMoves ms s = .next t →
    tickCount ms < 100 - s.params.svcTol →
    t.ph = .svcWait ∧ t.svcOut = s.svcOut ∧ t.h2d = s.h2d ∧ t.d2h = s.d2h ∧ t.dl = s.dl ∧ t.arm = s.arm ∧
    t.kpColOut = s.kpColOut ∧ t.vmcRowOut = s.vmcRowOut ∧ t.d2hOut = s.d2hOut ∧ t.busOut = s.busOut ∧
    t.svcOutT = s.svcOutT ∧ t.kpOut = s.kpOut

/-- Under the fairness assumptions every service pulse ends. Rests on 40_sequencer.md (the fairness assumptions);
42_command_decoder.md section 2 (SVC_WAIT); 92_eei_decisions.md D36. -/
def Obligations.ServiceEventuallyReleased : Prop :=
  ∀ σ μ, IsRun σ μ → FairMain σ μ → FairTick μ → ∀ n, (σ n).ph = .svcWait →
    ∃ m, n < m ∧ (σ m).ph = .xfer ∧ (σ m).svcOut = .hiz ∧ (σ m).svcOutT.getLast? = some .svcRelease

/-- MAIN has one enabled step in every phase but SVC_WAIT, where it waits for TICK. Rests on 40_sequencer.md (MAIN has one
enabled step in every phase except SVC_WAIT); 42_command_decoder.md section 2 (SVC_WAIT). The model's choice, not the
spec's (log 3): a MAIN move that is not enabled leaves the state. -/
def Obligations.MainWaitsOnlyInSvcWait : Prop :=
  ∀ k s, (mainEnabled s = true ↔ (s.ph = .svcWait → 100 ≤ (s.clock - s.svcT0).toNat + s.params.svcTol)) ∧
    (mainEnabled s = true → ∃ t, act (.main k) s = .next t ∧ t.ph ≠ s.ph) ∧
    (mainEnabled s = false → act (.main k) s = .next s)

/-- From XFER, 28 steps of MAIN scan the three columns in order and reach DECODE. Rests on 40_sequencer.md (the
iteration); 41_matrix_scanner.md section 3; 92_eei_decisions.md D12, D42. -/
def Obligations.ScanIterationOrder : Prop :=
  ∀ (ks : List (BitVec 7)) s, ks.length = 28 → s.ph = .xfer → s.kpColOut = 0b111 →
    ∃ t, runMoves (ks.map .main) s = .next t ∧ t.ph = .decode ∧ t.kpColOut = 0b111 ∧
      t.kpOut = s.kpOut ++ [.colLow 0, .colHigh 0, .colLow 1, .colHigh 1, .colLow 2, .colHigh 2] ∧
      t.clock = s.clock ∧ t.h2d = s.h2d ∧ t.arm = s.arm ∧ t.svcOut = s.svcOut ∧ t.vmcRowOut = s.vmcRowOut

/-- XFER, HostRecv and HostSend. Rests on 40_sequencer.md (phase XFER); 92_eei_decisions.md D26. The model's choice, not
the spec's (log 3): a HOST move outside its guard leaves the state. -/
def Obligations.HostMovesEffect : Prop :=
  (∀ k s, s.ph = .xfer → act (.main k) s = .next { s with ph := .scanDrive 0 }) ∧
  (∀ b s, s.ph = .xfer → s.h2d.length ≠ 128 → act (.hostRecv b) s = .next { s with h2d := s.h2d ++ [b] }) ∧
  (∀ b s, s.ph ≠ .xfer ∨ s.h2d.length = 128 → act (.hostRecv b) s = .next s) ∧
  (∀ s b q, s.ph = .xfer → s.d2h = b :: q →
    act (.hostSend .success) s = .next { s with d2h := q, d2hOut := s.d2hOut ++ [b] } ∧
    act (.hostSend .retryLater) s = .next s ∧ act (.hostSend (.error true)) s = .next { s with d2h := q } ∧
    act (.hostSend (.error false)) s = .next s) ∧
  (∀ o s, s.ph ≠ .xfer ∨ s.d2h = [] → act (.hostSend o) s = .next s)

/-- A BUS move sets one sense line; a change on a watched line sets CN_PENDING. Rests on 43_pulse_generator.md section 1;
92_eei_decisions.md D17, D18. -/
def Obligations.BusMoveAndDetector : Prop :=
  (∀ (c : Col) l s, ∃ t, act (.bus c l) s = .next t ∧ senseLine t.vmcColSense c = l ∧
    (∀ j : Col, j ≠ c → senseLine t.vmcColSense j = senseLine s.vmcColSense j) ∧
    (t.cnPending = true ↔
      s.cnPending = true ∨ (cnWatches s.params.cnSrc c = true ∧ senseLine s.vmcColSense c ≠ l)) ∧
    t = { s with vmcColSense := t.vmcColSense, cnPending := t.cnPending }) ∧
  (∀ src, ((List.finRange 3).filter (cnWatches src)).length = 2)

/-- The pin-change interrupt: entry, guard, pulse, disarm. Rests on 43_pulse_generator.md section 2; 92_eei_decisions.md
D18, D32, D43. The model's choice, not the spec's (log 3): a PCN move without CN_PENDING leaves the state. -/
def Obligations.PcnEffect : Prop :=
  (∀ s, s.cnPending = false → act .pcn s = .next s) ∧
  (∀ s, s.cnPending = true → s.arm.col = none → act .pcn s = .next { s with cnPending := false }) ∧
  (∀ s (c : Col), s.cnPending = true → s.arm.col = some c → senseLine s.vmcColSense c = .high →
    act .pcn s = .next { s with cnPending := false }) ∧
  (∀ s (c : Col), s.cnPending = true → s.arm.col = some c → senseLine s.vmcColSense c = .low →
    ∃ t, act .pcn s = .next t ∧ t.vmcRowOut.getLsbD s.arm.row = true ∧
      (∀ j : Row, j ≠ s.arm.row → t.vmcRowOut.getLsbD j = s.vmcRowOut.getLsbD j) ∧
      t = { s with
        cnPending := false
        vmcRowOut := t.vmcRowOut
        busOut := s.busOut ++ [{ col := c, row := s.arm.row }]
        arm := { col := none, row := s.arm.row } })

/-- The pulse waveform of each column, and the row latch after it. Formalises R96. -/
def Obligations.PulseWaveformShapes : Prop :=
  (∀ d r, pulseWaveform d ⟨0, r⟩ =
    [⟨.high, d.tPre1 + d.tPre2⟩, ⟨.low, d.tLow1⟩, ⟨.high, d.tHigh + d.tExtra⟩, ⟨.low, d.tLow2⟩]) ∧
  (∀ d r, pulseWaveform d ⟨1, r⟩ =
    [⟨.high, d.tPre1 + d.tPre2⟩, ⟨.low, d.tLow1⟩, ⟨.high, d.tHigh⟩, ⟨.low, d.tLow2⟩]) ∧
  (∀ d r, pulseWaveform d ⟨2, r⟩ = [⟨.high, d.tPre1 + d.tPre2⟩, ⟨.low, d.tLow1 + d.tLow2⟩]) ∧
  (∀ d (p : Pulse) v n, ∀ j : Row, j ≠ p.row →
    (((pulseActs d p.col).take n).foldl (pulseAct p.row) ⟨v, []⟩).rowOut.getLsbD j = v.getLsbD j) ∧
  (∀ d (p : Pulse), (runPulse d p 0b1111111).rowOut = 0b1111111) ∧
  (∀ d p, (((pulseWaveform d p).filter (fun g => g.level == .low)).map (·.length)).sum = d.tLow1 + d.tLow2)

/-- Every pulse takes less than one clock tick. Rests on 70_reset_and_hazards.md section 3 (handler length); 00_scope.md
section 4; 92_eei_decisions.md D20. -/
def Obligations.PulseFitsInOneTick : Prop :=
  ∀ d p, ((pulseWaveform d p).map (·.length)).sum < d.tTick

/-- A pulse fires if and only if a PCN step finds the armed column LOW, at the armed coordinate. Rests on
43_pulse_generator.md section 3; 95_test_vectors.md S2 property 5. -/
def Obligations.PulseIffArmedColumnLow : Prop :=
  ∀ m s t, act m s = .next t →
    (t.busOut ≠ s.busOut ↔ m = .pcn ∧ s.cnPending = true ∧ ∃ c, s.arm.col = some c ∧ senseLine s.vmcColSense c = .low) ∧
    (t.busOut = s.busOut ∨ ∃ c, s.arm.col = some c ∧ t.busOut = s.busOut ++ [{ col := c, row := s.arm.row }])

/-- Pulses and selects balance: each SELECT gives at most one pulse, each pulse follows one SELECT. Rests on
43_pulse_generator.md section 3; 42_command_decoder.md section 3. -/
def Obligations.PulsesCountSelects : Prop :=
  ∀ m s t, act m s = .next t →
    t.busOut.length + armedCount t = s.busOut.length + armedCount s + selectCount s t

/-- While armed nothing is consumed, and only a firing PCN step disarms. Formalises R89. -/
def Obligations.ArmedWaitsForPulse : Prop :=
  ∀ m s t (c : Col), act m s = .next t → s.arm.col = some c →
    (t.h2d = s.h2d ∨ ∃ b, t.h2d = s.h2d ++ [b]) ∧
    (t.arm = s.arm ∨ (m = .pcn ∧ t.arm = { col := none, row := s.arm.row } ∧
      t.busOut = s.busOut ++ [{ col := c, row := s.arm.row }]))

/-- If the bus never scans the armed column, the generator stays armed over any run. Rests on 70_reset_and_hazards.md
section 3 (armed for ever); 92_eei_decisions.md D36. -/
def Obligations.ArmedForeverWhileColumnHigh : Prop :=
  ∀ ms s t (c : Col), runMoves ms s = .next t → s.arm.col = some c → senseLine s.vmcColSense c = .high →
    (∀ m ∈ ms, m ≠ .bus c .low) → t.arm = s.arm ∧ t.busOut = s.busOut ∧ s.h2d <+: t.h2d

/-- ARM changes only by SELECT from idle, or by a pulse from armed. Rests on 10_state.md section 3; 20_memory.md section 4
(synchronisation). -/
def Obligations.ArmWrittenBySelectOrPulse : Prop :=
  ∀ m s t, act m s = .next t →
    (s.arm.col = none → t.arm = s.arm ∨ ∃ k b p, m = .main k ∧ s.ph = .decode ∧ s.h2d.head? = some b ∧
      classify s.keyMap b = .select p ∧ t.arm = { col := some p.col, row := p.row } ∧ t.ph = .ack) ∧
    (s.arm.col ≠ none → t.arm = s.arm ∨ (m = .pcn ∧ t.arm = { col := none, row := s.arm.row }))

/-- No agent writes state outside its row of the table of writers. Rests on 10_state.md section 6 (the table of writers). -/
def Obligations.WritersByAgent : Prop :=
  ∀ m s t, act m s = .next t →
    (t.clock ≠ s.clock → agentOf m = .tick) ∧
    (t.dl ≠ s.dl ∨ t.kpColOut ≠ s.kpColOut ∨ t.svcOut ≠ s.svcOut ∨ t.svcT0 ≠ s.svcT0 ∨ t.ph ≠ s.ph ∨
      t.kpOut ≠ s.kpOut ∨ t.svcOutT ≠ s.svcOutT → agentOf m = .main) ∧
    (t.vmcRowOut ≠ s.vmcRowOut ∨ t.busOut ≠ s.busOut → agentOf m = .pcn) ∧
    (t.vmcColSense ≠ s.vmcColSense → agentOf m = .bus) ∧
    (t.arm ≠ s.arm → agentOf m = .main ∨ agentOf m = .pcn) ∧
    (t.cnPending ≠ s.cnPending → (agentOf m = .bus ∧ t.cnPending = true) ∨ (agentOf m = .pcn ∧ t.cnPending = false)) ∧
    (t.h2d ≠ s.h2d ∨ t.d2h ≠ s.d2h → agentOf m = .host ∨ agentOf m = .main) ∧
    (t.d2hOut ≠ s.d2hOut → agentOf m = .host) ∧ t.keyMap = s.keyMap ∧ t.params = s.params

/-- An interrupt leaves MAIN in its phase and touches no state of MAIN but ARM. Rests on 60_exceptions.md section 2;
92_eei_decisions.md D47. -/
def Obligations.InterruptsKeepMainState : Prop :=
  ∀ m s t, act m s = .next t → contextOf (agentOf m) = some .interruptContext →
    t.ph = s.ph ∧ t.dl = s.dl ∧ t.kpColOut = s.kpColOut ∧ t.svcOut = s.svcOut ∧ t.svcT0 = s.svcT0 ∧
    t.h2d = s.h2d ∧ t.d2h = s.d2h ∧ t.vmcColSense = s.vmcColSense ∧ (m = .tick → t.arm = s.arm)

/-- TICK then PCN and PCN then TICK lead to the same state. Rests on 60_exceptions.md section 2 (priority);
92_eei_decisions.md D19. The model's choice, not the spec's (log 3): a PCN move without CN_PENDING leaves the state. -/
def Obligations.TickAndPcnCommute : Prop :=
  ∀ s, ∃ u v w, act .tick s = .next u ∧ act .pcn s = .next v ∧ act .pcn u = .next w ∧ act .tick v = .next w

/-- The keypad is read by SCAN_ROW(c, r) alone, and only on its row r. Rests on 10_state.md section 6 (readers of
KP_ROW_IN); 41_matrix_scanner.md section 1. -/
def Obligations.KeypadLevelsReachRowReadsOnly : Prop :=
  ∀ k k' s, (∀ (c : Col) (r : Row), s.ph = .scanRow c r → senseLine k r = senseLine k' r) → act (.main k) s = act (.main k') s

/-- Rows of column c are read only while column c alone is LOW, so the reference keypad reads its pressed keys. Rests on
41_matrix_scanner.md sections 1 and 4; 92_eei_decisions.md D24, D25. -/
def Obligations.ReferenceKeypadReadsPressedKeys : Prop :=
  ∀ s (c : Col) (r : Row) (pressed : List Coord), colsMatchPhase s → s.ph = .scanRow c r →
    (∀ j : Col, senseLine s.kpColOut j = .low ↔ j = c) ∧
    (senseLine (referenceKeypad pressed s.kpColOut) r = .low ↔ ⟨c, r⟩ ∈ pressed)

/-- A new target may fire between SELECT and its acknowledgement. Rests on 70_reset_and_hazards.md section 3 (the ack and
pulse race); 92_eei_decisions.md D14. -/
def Obligations.PulseMayPrecedeAck : Prop :=
  ∀ k k' s b q p, s.ph = .decode → s.arm.col = none → s.h2d = b :: q → classify s.keyMap b = .select p →
    s.cnPending = true → senseLine s.vmcColSense p.col = .low → s.d2h.length ≠ 128 →
    ∃ u v w, act (.main k) s = .next u ∧ act .pcn u = .next v ∧ act (.main k') v = .next w ∧
      u.arm = { col := some p.col, row := p.row } ∧ v.busOut = s.busOut ++ [{ col := p.col, row := p.row }] ∧
      v.d2h = s.d2h ∧ v.ph = .ack ∧ v.arm.col = none ∧ w.d2h = s.d2h ++ [0x3D] ∧ w.ph = .xfer

/-- The bits of ARM: COL 3 exactly when idle, ROW never 7, distinct values distinct. Rests on 10_state.md section 3;
92_eei_decisions.md D16, D40. -/
def Obligations.ArmFieldsLegal : Prop :=
  (∀ a, ((armWord a).extractLsb 4 3 = 3 ↔ a.col = none) ∧
    (∀ c, a.col = some c → ((armWord a).extractLsb 4 3).toNat = c.val) ∧
    ((armWord a).extractLsb 2 0).toNat = a.row.val) ∧
  (∀ a a', armWord a = armWord a' → a = a')
end

