-- ==== Sys2Proof/Laws/State.lean ====
section
/-! SUPPORT. One lemma per field per update, each true by rfl, so that no proof unfolds a record update. -/

namespace Sys2Proof.Machine

@[simp] theorem setPhase_clock (p : Phase) (s : State) : (setPhase p s).clock = s.clock := rfl
@[simp] theorem setPhase_dl (p : Phase) (s : State) : (setPhase p s).dl = s.dl := rfl
@[simp] theorem setPhase_arm (p : Phase) (s : State) : (setPhase p s).arm = s.arm := rfl
@[simp] theorem setPhase_keyMap (p : Phase) (s : State) : (setPhase p s).keyMap = s.keyMap := rfl
@[simp] theorem setPhase_kpColOut (p : Phase) (s : State) : (setPhase p s).kpColOut = s.kpColOut := rfl
@[simp] theorem setPhase_vmcRowOut (p : Phase) (s : State) : (setPhase p s).vmcRowOut = s.vmcRowOut := rfl
@[simp] theorem setPhase_svcOut (p : Phase) (s : State) : (setPhase p s).svcOut = s.svcOut := rfl
@[simp] theorem setPhase_cnPending (p : Phase) (s : State) : (setPhase p s).cnPending = s.cnPending := rfl
@[simp] theorem setPhase_h2d (p : Phase) (s : State) : (setPhase p s).h2d = s.h2d := rfl
@[simp] theorem setPhase_d2h (p : Phase) (s : State) : (setPhase p s).d2h = s.d2h := rfl
@[simp] theorem setPhase_ph (p : Phase) (s : State) : (setPhase p s).ph = p := rfl
@[simp] theorem setPhase_svcT0 (p : Phase) (s : State) : (setPhase p s).svcT0 = s.svcT0 := rfl
@[simp] theorem setPhase_d2hOut (p : Phase) (s : State) : (setPhase p s).d2hOut = s.d2hOut := rfl
@[simp] theorem setPhase_busOut (p : Phase) (s : State) : (setPhase p s).busOut = s.busOut := rfl
@[simp] theorem setPhase_svcOutT (p : Phase) (s : State) : (setPhase p s).svcOutT = s.svcOutT := rfl
@[simp] theorem setPhase_kpOut (p : Phase) (s : State) : (setPhase p s).kpOut = s.kpOut := rfl
@[simp] theorem setPhase_vmcColSense (p : Phase) (s : State) : (setPhase p s).vmcColSense = s.vmcColSense := rfl
@[simp] theorem setPhase_params (p : Phase) (s : State) : (setPhase p s).params = s.params := rfl
@[simp] theorem setPhase_schedule (p : Phase) (s : State) : (setPhase p s).schedule = s.schedule := rfl
@[simp] theorem setPhase_freeMoves (p : Phase) (s : State) : (setPhase p s).freeMoves = s.freeMoves := rfl

@[simp] theorem armAt_clock (p : Coord) (s : State) : (armAt p s).clock = s.clock := rfl
@[simp] theorem armAt_dl (p : Coord) (s : State) : (armAt p s).dl = s.dl := rfl
@[simp] theorem armAt_arm (p : Coord) (s : State) : (armAt p s).arm = { col := some p.col, row := p.row } := rfl
@[simp] theorem armAt_keyMap (p : Coord) (s : State) : (armAt p s).keyMap = s.keyMap := rfl
@[simp] theorem armAt_kpColOut (p : Coord) (s : State) : (armAt p s).kpColOut = s.kpColOut := rfl
@[simp] theorem armAt_vmcRowOut (p : Coord) (s : State) : (armAt p s).vmcRowOut = s.vmcRowOut := rfl
@[simp] theorem armAt_svcOut (p : Coord) (s : State) : (armAt p s).svcOut = s.svcOut := rfl
@[simp] theorem armAt_cnPending (p : Coord) (s : State) : (armAt p s).cnPending = s.cnPending := rfl
@[simp] theorem armAt_h2d (p : Coord) (s : State) : (armAt p s).h2d = s.h2d := rfl
@[simp] theorem armAt_d2h (p : Coord) (s : State) : (armAt p s).d2h = s.d2h := rfl
@[simp] theorem armAt_ph (p : Coord) (s : State) : (armAt p s).ph = s.ph := rfl
@[simp] theorem armAt_svcT0 (p : Coord) (s : State) : (armAt p s).svcT0 = s.svcT0 := rfl
@[simp] theorem armAt_d2hOut (p : Coord) (s : State) : (armAt p s).d2hOut = s.d2hOut := rfl
@[simp] theorem armAt_busOut (p : Coord) (s : State) : (armAt p s).busOut = s.busOut := rfl
@[simp] theorem armAt_svcOutT (p : Coord) (s : State) : (armAt p s).svcOutT = s.svcOutT := rfl
@[simp] theorem armAt_kpOut (p : Coord) (s : State) : (armAt p s).kpOut = s.kpOut := rfl
@[simp] theorem armAt_vmcColSense (p : Coord) (s : State) : (armAt p s).vmcColSense = s.vmcColSense := rfl
@[simp] theorem armAt_params (p : Coord) (s : State) : (armAt p s).params = s.params := rfl
@[simp] theorem armAt_schedule (p : Coord) (s : State) : (armAt p s).schedule = s.schedule := rfl
@[simp] theorem armAt_freeMoves (p : Coord) (s : State) : (armAt p s).freeMoves = s.freeMoves := rfl

@[simp] theorem disarm_clock (s : State) : (disarm s).clock = s.clock := rfl
@[simp] theorem disarm_dl (s : State) : (disarm s).dl = s.dl := rfl
@[simp] theorem disarm_arm (s : State) : (disarm s).arm = { s.arm with col := none } := rfl
@[simp] theorem disarm_keyMap (s : State) : (disarm s).keyMap = s.keyMap := rfl
@[simp] theorem disarm_kpColOut (s : State) : (disarm s).kpColOut = s.kpColOut := rfl
@[simp] theorem disarm_vmcRowOut (s : State) : (disarm s).vmcRowOut = s.vmcRowOut := rfl
@[simp] theorem disarm_svcOut (s : State) : (disarm s).svcOut = s.svcOut := rfl
@[simp] theorem disarm_cnPending (s : State) : (disarm s).cnPending = s.cnPending := rfl
@[simp] theorem disarm_h2d (s : State) : (disarm s).h2d = s.h2d := rfl
@[simp] theorem disarm_d2h (s : State) : (disarm s).d2h = s.d2h := rfl
@[simp] theorem disarm_ph (s : State) : (disarm s).ph = s.ph := rfl
@[simp] theorem disarm_svcT0 (s : State) : (disarm s).svcT0 = s.svcT0 := rfl
@[simp] theorem disarm_d2hOut (s : State) : (disarm s).d2hOut = s.d2hOut := rfl
@[simp] theorem disarm_busOut (s : State) : (disarm s).busOut = s.busOut := rfl
@[simp] theorem disarm_svcOutT (s : State) : (disarm s).svcOutT = s.svcOutT := rfl
@[simp] theorem disarm_kpOut (s : State) : (disarm s).kpOut = s.kpOut := rfl
@[simp] theorem disarm_vmcColSense (s : State) : (disarm s).vmcColSense = s.vmcColSense := rfl
@[simp] theorem disarm_params (s : State) : (disarm s).params = s.params := rfl
@[simp] theorem disarm_schedule (s : State) : (disarm s).schedule = s.schedule := rfl
@[simp] theorem disarm_freeMoves (s : State) : (disarm s).freeMoves = s.freeMoves := rfl

@[simp] theorem enqD2H_clock (b : Byte) (s : State) : (enqD2H b s).clock = s.clock := rfl
@[simp] theorem enqD2H_dl (b : Byte) (s : State) : (enqD2H b s).dl = s.dl := rfl
@[simp] theorem enqD2H_arm (b : Byte) (s : State) : (enqD2H b s).arm = s.arm := rfl
@[simp] theorem enqD2H_keyMap (b : Byte) (s : State) : (enqD2H b s).keyMap = s.keyMap := rfl
@[simp] theorem enqD2H_kpColOut (b : Byte) (s : State) : (enqD2H b s).kpColOut = s.kpColOut := rfl
@[simp] theorem enqD2H_vmcRowOut (b : Byte) (s : State) : (enqD2H b s).vmcRowOut = s.vmcRowOut := rfl
@[simp] theorem enqD2H_svcOut (b : Byte) (s : State) : (enqD2H b s).svcOut = s.svcOut := rfl
@[simp] theorem enqD2H_cnPending (b : Byte) (s : State) : (enqD2H b s).cnPending = s.cnPending := rfl
@[simp] theorem enqD2H_h2d (b : Byte) (s : State) : (enqD2H b s).h2d = s.h2d := rfl
@[simp] theorem enqD2H_d2h (b : Byte) (s : State) : (enqD2H b s).d2h = enqDrop s.d2h b := rfl
@[simp] theorem enqD2H_ph (b : Byte) (s : State) : (enqD2H b s).ph = s.ph := rfl
@[simp] theorem enqD2H_svcT0 (b : Byte) (s : State) : (enqD2H b s).svcT0 = s.svcT0 := rfl
@[simp] theorem enqD2H_d2hOut (b : Byte) (s : State) : (enqD2H b s).d2hOut = s.d2hOut := rfl
@[simp] theorem enqD2H_busOut (b : Byte) (s : State) : (enqD2H b s).busOut = s.busOut := rfl
@[simp] theorem enqD2H_svcOutT (b : Byte) (s : State) : (enqD2H b s).svcOutT = s.svcOutT := rfl
@[simp] theorem enqD2H_kpOut (b : Byte) (s : State) : (enqD2H b s).kpOut = s.kpOut := rfl
@[simp] theorem enqD2H_vmcColSense (b : Byte) (s : State) : (enqD2H b s).vmcColSense = s.vmcColSense := rfl
@[simp] theorem enqD2H_params (b : Byte) (s : State) : (enqD2H b s).params = s.params := rfl
@[simp] theorem enqD2H_schedule (b : Byte) (s : State) : (enqD2H b s).schedule = s.schedule := rfl
@[simp] theorem enqD2H_freeMoves (b : Byte) (s : State) : (enqD2H b s).freeMoves = s.freeMoves := rfl

@[simp] theorem emitKp_clock (e : KpEvent) (s : State) : (emitKp e s).clock = s.clock := rfl
@[simp] theorem emitKp_dl (e : KpEvent) (s : State) : (emitKp e s).dl = s.dl := rfl
@[simp] theorem emitKp_arm (e : KpEvent) (s : State) : (emitKp e s).arm = s.arm := rfl
@[simp] theorem emitKp_keyMap (e : KpEvent) (s : State) : (emitKp e s).keyMap = s.keyMap := rfl
@[simp] theorem emitKp_kpColOut (e : KpEvent) (s : State) : (emitKp e s).kpColOut = s.kpColOut := rfl
@[simp] theorem emitKp_vmcRowOut (e : KpEvent) (s : State) : (emitKp e s).vmcRowOut = s.vmcRowOut := rfl
@[simp] theorem emitKp_svcOut (e : KpEvent) (s : State) : (emitKp e s).svcOut = s.svcOut := rfl
@[simp] theorem emitKp_cnPending (e : KpEvent) (s : State) : (emitKp e s).cnPending = s.cnPending := rfl
@[simp] theorem emitKp_h2d (e : KpEvent) (s : State) : (emitKp e s).h2d = s.h2d := rfl
@[simp] theorem emitKp_d2h (e : KpEvent) (s : State) : (emitKp e s).d2h = s.d2h := rfl
@[simp] theorem emitKp_ph (e : KpEvent) (s : State) : (emitKp e s).ph = s.ph := rfl
@[simp] theorem emitKp_svcT0 (e : KpEvent) (s : State) : (emitKp e s).svcT0 = s.svcT0 := rfl
@[simp] theorem emitKp_d2hOut (e : KpEvent) (s : State) : (emitKp e s).d2hOut = s.d2hOut := rfl
@[simp] theorem emitKp_busOut (e : KpEvent) (s : State) : (emitKp e s).busOut = s.busOut := rfl
@[simp] theorem emitKp_svcOutT (e : KpEvent) (s : State) : (emitKp e s).svcOutT = s.svcOutT := rfl
@[simp] theorem emitKp_kpOut (e : KpEvent) (s : State) : (emitKp e s).kpOut = s.kpOut ++ [e] := rfl
@[simp] theorem emitKp_vmcColSense (e : KpEvent) (s : State) : (emitKp e s).vmcColSense = s.vmcColSense := rfl
@[simp] theorem emitKp_params (e : KpEvent) (s : State) : (emitKp e s).params = s.params := rfl
@[simp] theorem emitKp_schedule (e : KpEvent) (s : State) : (emitKp e s).schedule = s.schedule := rfl
@[simp] theorem emitKp_freeMoves (e : KpEvent) (s : State) : (emitKp e s).freeMoves = s.freeMoves := rfl

@[simp] theorem driveKpCol_clock (c : Col) (l : Level) (s : State) : (driveKpCol c l s).clock = s.clock := rfl
@[simp] theorem driveKpCol_dl (c : Col) (l : Level) (s : State) : (driveKpCol c l s).dl = s.dl := rfl
@[simp] theorem driveKpCol_arm (c : Col) (l : Level) (s : State) : (driveKpCol c l s).arm = s.arm := rfl
@[simp] theorem driveKpCol_keyMap (c : Col) (l : Level) (s : State) : (driveKpCol c l s).keyMap = s.keyMap := rfl
@[simp] theorem driveKpCol_kpColOut (c : Col) (l : Level) (s : State) : (driveKpCol c l s).kpColOut = driveLine s.kpColOut c l := rfl
@[simp] theorem driveKpCol_vmcRowOut (c : Col) (l : Level) (s : State) : (driveKpCol c l s).vmcRowOut = s.vmcRowOut := rfl
@[simp] theorem driveKpCol_svcOut (c : Col) (l : Level) (s : State) : (driveKpCol c l s).svcOut = s.svcOut := rfl
@[simp] theorem driveKpCol_cnPending (c : Col) (l : Level) (s : State) : (driveKpCol c l s).cnPending = s.cnPending := rfl
@[simp] theorem driveKpCol_h2d (c : Col) (l : Level) (s : State) : (driveKpCol c l s).h2d = s.h2d := rfl
@[simp] theorem driveKpCol_d2h (c : Col) (l : Level) (s : State) : (driveKpCol c l s).d2h = s.d2h := rfl
@[simp] theorem driveKpCol_ph (c : Col) (l : Level) (s : State) : (driveKpCol c l s).ph = s.ph := rfl
@[simp] theorem driveKpCol_svcT0 (c : Col) (l : Level) (s : State) : (driveKpCol c l s).svcT0 = s.svcT0 := rfl
@[simp] theorem driveKpCol_d2hOut (c : Col) (l : Level) (s : State) : (driveKpCol c l s).d2hOut = s.d2hOut := rfl
@[simp] theorem driveKpCol_busOut (c : Col) (l : Level) (s : State) : (driveKpCol c l s).busOut = s.busOut := rfl
@[simp] theorem driveKpCol_svcOutT (c : Col) (l : Level) (s : State) : (driveKpCol c l s).svcOutT = s.svcOutT := rfl
@[simp] theorem driveKpCol_kpOut (c : Col) (l : Level) (s : State) : (driveKpCol c l s).kpOut = s.kpOut := rfl
@[simp] theorem driveKpCol_vmcColSense (c : Col) (l : Level) (s : State) : (driveKpCol c l s).vmcColSense = s.vmcColSense := rfl
@[simp] theorem driveKpCol_params (c : Col) (l : Level) (s : State) : (driveKpCol c l s).params = s.params := rfl
@[simp] theorem driveKpCol_schedule (c : Col) (l : Level) (s : State) : (driveKpCol c l s).schedule = s.schedule := rfl
@[simp] theorem driveKpCol_freeMoves (c : Col) (l : Level) (s : State) : (driveKpCol c l s).freeMoves = s.freeMoves := rfl

@[simp] theorem acceptPress_clock (p : Coord) (t : Word) (s : State) : (acceptPress p t s).clock = s.clock := rfl
@[simp] theorem acceptPress_dl (p : Coord) (t : Word) (s : State) : (acceptPress p t s).dl = gridSet s.dl p (newDeadline t) := rfl
@[simp] theorem acceptPress_arm (p : Coord) (t : Word) (s : State) : (acceptPress p t s).arm = s.arm := rfl
@[simp] theorem acceptPress_keyMap (p : Coord) (t : Word) (s : State) : (acceptPress p t s).keyMap = s.keyMap := rfl
@[simp] theorem acceptPress_kpColOut (p : Coord) (t : Word) (s : State) : (acceptPress p t s).kpColOut = s.kpColOut := rfl
@[simp] theorem acceptPress_vmcRowOut (p : Coord) (t : Word) (s : State) : (acceptPress p t s).vmcRowOut = s.vmcRowOut := rfl
@[simp] theorem acceptPress_svcOut (p : Coord) (t : Word) (s : State) : (acceptPress p t s).svcOut = s.svcOut := rfl
@[simp] theorem acceptPress_cnPending (p : Coord) (t : Word) (s : State) : (acceptPress p t s).cnPending = s.cnPending := rfl
@[simp] theorem acceptPress_h2d (p : Coord) (t : Word) (s : State) : (acceptPress p t s).h2d = s.h2d := rfl
@[simp] theorem acceptPress_d2h (p : Coord) (t : Word) (s : State) : (acceptPress p t s).d2h = enqDrop s.d2h (keyAt s.keyMap p) := rfl
@[simp] theorem acceptPress_ph (p : Coord) (t : Word) (s : State) : (acceptPress p t s).ph = s.ph := rfl
@[simp] theorem acceptPress_svcT0 (p : Coord) (t : Word) (s : State) : (acceptPress p t s).svcT0 = s.svcT0 := rfl
@[simp] theorem acceptPress_d2hOut (p : Coord) (t : Word) (s : State) : (acceptPress p t s).d2hOut = s.d2hOut := rfl
@[simp] theorem acceptPress_busOut (p : Coord) (t : Word) (s : State) : (acceptPress p t s).busOut = s.busOut := rfl
@[simp] theorem acceptPress_svcOutT (p : Coord) (t : Word) (s : State) : (acceptPress p t s).svcOutT = s.svcOutT := rfl
@[simp] theorem acceptPress_kpOut (p : Coord) (t : Word) (s : State) : (acceptPress p t s).kpOut = s.kpOut := rfl
@[simp] theorem acceptPress_vmcColSense (p : Coord) (t : Word) (s : State) : (acceptPress p t s).vmcColSense = s.vmcColSense := rfl
@[simp] theorem acceptPress_params (p : Coord) (t : Word) (s : State) : (acceptPress p t s).params = s.params := rfl
@[simp] theorem acceptPress_schedule (p : Coord) (t : Word) (s : State) : (acceptPress p t s).schedule = s.schedule := rfl
@[simp] theorem acceptPress_freeMoves (p : Coord) (t : Word) (s : State) : (acceptPress p t s).freeMoves = s.freeMoves := rfl

@[simp] theorem driveSvc_clock (l : SvcLine) (e : SvcEvent) (s : State) : (driveSvc l e s).clock = s.clock := rfl
@[simp] theorem driveSvc_dl (l : SvcLine) (e : SvcEvent) (s : State) : (driveSvc l e s).dl = s.dl := rfl
@[simp] theorem driveSvc_arm (l : SvcLine) (e : SvcEvent) (s : State) : (driveSvc l e s).arm = s.arm := rfl
@[simp] theorem driveSvc_keyMap (l : SvcLine) (e : SvcEvent) (s : State) : (driveSvc l e s).keyMap = s.keyMap := rfl
@[simp] theorem driveSvc_kpColOut (l : SvcLine) (e : SvcEvent) (s : State) : (driveSvc l e s).kpColOut = s.kpColOut := rfl
@[simp] theorem driveSvc_vmcRowOut (l : SvcLine) (e : SvcEvent) (s : State) : (driveSvc l e s).vmcRowOut = s.vmcRowOut := rfl
@[simp] theorem driveSvc_svcOut (l : SvcLine) (e : SvcEvent) (s : State) : (driveSvc l e s).svcOut = l := rfl
@[simp] theorem driveSvc_cnPending (l : SvcLine) (e : SvcEvent) (s : State) : (driveSvc l e s).cnPending = s.cnPending := rfl
@[simp] theorem driveSvc_h2d (l : SvcLine) (e : SvcEvent) (s : State) : (driveSvc l e s).h2d = s.h2d := rfl
@[simp] theorem driveSvc_d2h (l : SvcLine) (e : SvcEvent) (s : State) : (driveSvc l e s).d2h = s.d2h := rfl
@[simp] theorem driveSvc_ph (l : SvcLine) (e : SvcEvent) (s : State) : (driveSvc l e s).ph = s.ph := rfl
@[simp] theorem driveSvc_svcT0 (l : SvcLine) (e : SvcEvent) (s : State) : (driveSvc l e s).svcT0 = s.svcT0 := rfl
@[simp] theorem driveSvc_d2hOut (l : SvcLine) (e : SvcEvent) (s : State) : (driveSvc l e s).d2hOut = s.d2hOut := rfl
@[simp] theorem driveSvc_busOut (l : SvcLine) (e : SvcEvent) (s : State) : (driveSvc l e s).busOut = s.busOut := rfl
@[simp] theorem driveSvc_svcOutT (l : SvcLine) (e : SvcEvent) (s : State) : (driveSvc l e s).svcOutT = s.svcOutT ++ [e] := rfl
@[simp] theorem driveSvc_kpOut (l : SvcLine) (e : SvcEvent) (s : State) : (driveSvc l e s).kpOut = s.kpOut := rfl
@[simp] theorem driveSvc_vmcColSense (l : SvcLine) (e : SvcEvent) (s : State) : (driveSvc l e s).vmcColSense = s.vmcColSense := rfl
@[simp] theorem driveSvc_params (l : SvcLine) (e : SvcEvent) (s : State) : (driveSvc l e s).params = s.params := rfl
@[simp] theorem driveSvc_schedule (l : SvcLine) (e : SvcEvent) (s : State) : (driveSvc l e s).schedule = s.schedule := rfl
@[simp] theorem driveSvc_freeMoves (l : SvcLine) (e : SvcEvent) (s : State) : (driveSvc l e s).freeMoves = s.freeMoves := rfl

@[simp] theorem takePin_clock (s : State) : (takeInterrupt .pinChange s).clock = s.clock := rfl
@[simp] theorem takePin_dl (s : State) : (takeInterrupt .pinChange s).dl = s.dl := rfl
@[simp] theorem takePin_arm (s : State) : (takeInterrupt .pinChange s).arm = s.arm := rfl
@[simp] theorem takePin_keyMap (s : State) : (takeInterrupt .pinChange s).keyMap = s.keyMap := rfl
@[simp] theorem takePin_kpColOut (s : State) : (takeInterrupt .pinChange s).kpColOut = s.kpColOut := rfl
@[simp] theorem takePin_vmcRowOut (s : State) : (takeInterrupt .pinChange s).vmcRowOut = s.vmcRowOut := rfl
@[simp] theorem takePin_svcOut (s : State) : (takeInterrupt .pinChange s).svcOut = s.svcOut := rfl
@[simp] theorem takePin_cnPending (s : State) : (takeInterrupt .pinChange s).cnPending = false := rfl
@[simp] theorem takePin_h2d (s : State) : (takeInterrupt .pinChange s).h2d = s.h2d := rfl
@[simp] theorem takePin_d2h (s : State) : (takeInterrupt .pinChange s).d2h = s.d2h := rfl
@[simp] theorem takePin_ph (s : State) : (takeInterrupt .pinChange s).ph = s.ph := rfl
@[simp] theorem takePin_svcT0 (s : State) : (takeInterrupt .pinChange s).svcT0 = s.svcT0 := rfl
@[simp] theorem takePin_d2hOut (s : State) : (takeInterrupt .pinChange s).d2hOut = s.d2hOut := rfl
@[simp] theorem takePin_busOut (s : State) : (takeInterrupt .pinChange s).busOut = s.busOut := rfl
@[simp] theorem takePin_svcOutT (s : State) : (takeInterrupt .pinChange s).svcOutT = s.svcOutT := rfl
@[simp] theorem takePin_kpOut (s : State) : (takeInterrupt .pinChange s).kpOut = s.kpOut := rfl
@[simp] theorem takePin_vmcColSense (s : State) : (takeInterrupt .pinChange s).vmcColSense = s.vmcColSense := rfl
@[simp] theorem takePin_params (s : State) : (takeInterrupt .pinChange s).params = s.params := rfl
@[simp] theorem takePin_schedule (s : State) : (takeInterrupt .pinChange s).schedule = s.schedule := rfl
@[simp] theorem takePin_freeMoves (s : State) : (takeInterrupt .pinChange s).freeMoves = s.freeMoves := rfl

@[simp] theorem tickHandler_clock (s : State) : (tickHandler s).clock = s.clock + 1 := rfl
@[simp] theorem tickHandler_dl (s : State) : (tickHandler s).dl = s.dl := rfl
@[simp] theorem tickHandler_arm (s : State) : (tickHandler s).arm = s.arm := rfl
@[simp] theorem tickHandler_keyMap (s : State) : (tickHandler s).keyMap = s.keyMap := rfl
@[simp] theorem tickHandler_kpColOut (s : State) : (tickHandler s).kpColOut = s.kpColOut := rfl
@[simp] theorem tickHandler_vmcRowOut (s : State) : (tickHandler s).vmcRowOut = s.vmcRowOut := rfl
@[simp] theorem tickHandler_svcOut (s : State) : (tickHandler s).svcOut = s.svcOut := rfl
@[simp] theorem tickHandler_cnPending (s : State) : (tickHandler s).cnPending = s.cnPending := rfl
@[simp] theorem tickHandler_h2d (s : State) : (tickHandler s).h2d = s.h2d := rfl
@[simp] theorem tickHandler_d2h (s : State) : (tickHandler s).d2h = s.d2h := rfl
@[simp] theorem tickHandler_ph (s : State) : (tickHandler s).ph = s.ph := rfl
@[simp] theorem tickHandler_svcT0 (s : State) : (tickHandler s).svcT0 = s.svcT0 := rfl
@[simp] theorem tickHandler_d2hOut (s : State) : (tickHandler s).d2hOut = s.d2hOut := rfl
@[simp] theorem tickHandler_busOut (s : State) : (tickHandler s).busOut = s.busOut := rfl
@[simp] theorem tickHandler_svcOutT (s : State) : (tickHandler s).svcOutT = s.svcOutT := rfl
@[simp] theorem tickHandler_kpOut (s : State) : (tickHandler s).kpOut = s.kpOut := rfl
@[simp] theorem tickHandler_vmcColSense (s : State) : (tickHandler s).vmcColSense = s.vmcColSense := rfl
@[simp] theorem tickHandler_params (s : State) : (tickHandler s).params = s.params := rfl
@[simp] theorem tickHandler_schedule (s : State) : (tickHandler s).schedule = s.schedule := rfl
@[simp] theorem tickHandler_freeMoves (s : State) : (tickHandler s).freeMoves = s.freeMoves := rfl

@[simp] theorem busMove_clock (c : Col) (l : Level) (s : State) : (busMove c l s).clock = s.clock := rfl
@[simp] theorem busMove_dl (c : Col) (l : Level) (s : State) : (busMove c l s).dl = s.dl := rfl
@[simp] theorem busMove_arm (c : Col) (l : Level) (s : State) : (busMove c l s).arm = s.arm := rfl
@[simp] theorem busMove_keyMap (c : Col) (l : Level) (s : State) : (busMove c l s).keyMap = s.keyMap := rfl
@[simp] theorem busMove_kpColOut (c : Col) (l : Level) (s : State) : (busMove c l s).kpColOut = s.kpColOut := rfl
@[simp] theorem busMove_vmcRowOut (c : Col) (l : Level) (s : State) : (busMove c l s).vmcRowOut = s.vmcRowOut := rfl
@[simp] theorem busMove_svcOut (c : Col) (l : Level) (s : State) : (busMove c l s).svcOut = s.svcOut := rfl
@[simp] theorem busMove_cnPending (c : Col) (l : Level) (s : State) : (busMove c l s).cnPending = cnAfter s c l := rfl
@[simp] theorem busMove_h2d (c : Col) (l : Level) (s : State) : (busMove c l s).h2d = s.h2d := rfl
@[simp] theorem busMove_d2h (c : Col) (l : Level) (s : State) : (busMove c l s).d2h = s.d2h := rfl
@[simp] theorem busMove_ph (c : Col) (l : Level) (s : State) : (busMove c l s).ph = s.ph := rfl
@[simp] theorem busMove_svcT0 (c : Col) (l : Level) (s : State) : (busMove c l s).svcT0 = s.svcT0 := rfl
@[simp] theorem busMove_d2hOut (c : Col) (l : Level) (s : State) : (busMove c l s).d2hOut = s.d2hOut := rfl
@[simp] theorem busMove_busOut (c : Col) (l : Level) (s : State) : (busMove c l s).busOut = s.busOut := rfl
@[simp] theorem busMove_svcOutT (c : Col) (l : Level) (s : State) : (busMove c l s).svcOutT = s.svcOutT := rfl
@[simp] theorem busMove_kpOut (c : Col) (l : Level) (s : State) : (busMove c l s).kpOut = s.kpOut := rfl
@[simp] theorem busMove_vmcColSense (c : Col) (l : Level) (s : State) : (busMove c l s).vmcColSense = driveLine s.vmcColSense c l := rfl
@[simp] theorem busMove_params (c : Col) (l : Level) (s : State) : (busMove c l s).params = s.params := rfl
@[simp] theorem busMove_schedule (c : Col) (l : Level) (s : State) : (busMove c l s).schedule = s.schedule := rfl
@[simp] theorem busMove_freeMoves (c : Col) (l : Level) (s : State) : (busMove c l s).freeMoves = s.freeMoves := rfl

@[simp] theorem firePulse_clock (p : Pulse) (s : State) : (firePulse p s).clock = s.clock := rfl
@[simp] theorem firePulse_dl (p : Pulse) (s : State) : (firePulse p s).dl = s.dl := rfl
@[simp] theorem firePulse_arm (p : Pulse) (s : State) : (firePulse p s).arm = { s.arm with col := none } := rfl
@[simp] theorem firePulse_keyMap (p : Pulse) (s : State) : (firePulse p s).keyMap = s.keyMap := rfl
@[simp] theorem firePulse_kpColOut (p : Pulse) (s : State) : (firePulse p s).kpColOut = s.kpColOut := rfl
@[simp] theorem firePulse_vmcRowOut (p : Pulse) (s : State) : (firePulse p s).vmcRowOut = (runPulse s.params.delays p s.vmcRowOut).rowOut := rfl
@[simp] theorem firePulse_svcOut (p : Pulse) (s : State) : (firePulse p s).svcOut = s.svcOut := rfl
@[simp] theorem firePulse_cnPending (p : Pulse) (s : State) : (firePulse p s).cnPending = s.cnPending := rfl
@[simp] theorem firePulse_h2d (p : Pulse) (s : State) : (firePulse p s).h2d = s.h2d := rfl
@[simp] theorem firePulse_d2h (p : Pulse) (s : State) : (firePulse p s).d2h = s.d2h := rfl
@[simp] theorem firePulse_ph (p : Pulse) (s : State) : (firePulse p s).ph = s.ph := rfl
@[simp] theorem firePulse_svcT0 (p : Pulse) (s : State) : (firePulse p s).svcT0 = s.svcT0 := rfl
@[simp] theorem firePulse_d2hOut (p : Pulse) (s : State) : (firePulse p s).d2hOut = s.d2hOut := rfl
@[simp] theorem firePulse_busOut (p : Pulse) (s : State) : (firePulse p s).busOut = s.busOut ++ [p] := rfl
@[simp] theorem firePulse_svcOutT (p : Pulse) (s : State) : (firePulse p s).svcOutT = s.svcOutT := rfl
@[simp] theorem firePulse_kpOut (p : Pulse) (s : State) : (firePulse p s).kpOut = s.kpOut := rfl
@[simp] theorem firePulse_vmcColSense (p : Pulse) (s : State) : (firePulse p s).vmcColSense = s.vmcColSense := rfl
@[simp] theorem firePulse_params (p : Pulse) (s : State) : (firePulse p s).params = s.params := rfl
@[simp] theorem firePulse_schedule (p : Pulse) (s : State) : (firePulse p s).schedule = s.schedule := rfl
@[simp] theorem firePulse_freeMoves (p : Pulse) (s : State) : (firePulse p s).freeMoves = s.freeMoves := rfl

@[simp] theorem hostRecv_clock (b : Byte) (s : State) : (hostRecv b s).clock = s.clock := rfl
@[simp] theorem hostRecv_dl (b : Byte) (s : State) : (hostRecv b s).dl = s.dl := rfl
@[simp] theorem hostRecv_arm (b : Byte) (s : State) : (hostRecv b s).arm = s.arm := rfl
@[simp] theorem hostRecv_keyMap (b : Byte) (s : State) : (hostRecv b s).keyMap = s.keyMap := rfl
@[simp] theorem hostRecv_kpColOut (b : Byte) (s : State) : (hostRecv b s).kpColOut = s.kpColOut := rfl
@[simp] theorem hostRecv_vmcRowOut (b : Byte) (s : State) : (hostRecv b s).vmcRowOut = s.vmcRowOut := rfl
@[simp] theorem hostRecv_svcOut (b : Byte) (s : State) : (hostRecv b s).svcOut = s.svcOut := rfl
@[simp] theorem hostRecv_cnPending (b : Byte) (s : State) : (hostRecv b s).cnPending = s.cnPending := rfl
@[simp] theorem hostRecv_h2d (b : Byte) (s : State) : (hostRecv b s).h2d = enqDrop s.h2d b := rfl
@[simp] theorem hostRecv_d2h (b : Byte) (s : State) : (hostRecv b s).d2h = s.d2h := rfl
@[simp] theorem hostRecv_ph (b : Byte) (s : State) : (hostRecv b s).ph = s.ph := rfl
@[simp] theorem hostRecv_svcT0 (b : Byte) (s : State) : (hostRecv b s).svcT0 = s.svcT0 := rfl
@[simp] theorem hostRecv_d2hOut (b : Byte) (s : State) : (hostRecv b s).d2hOut = s.d2hOut := rfl
@[simp] theorem hostRecv_busOut (b : Byte) (s : State) : (hostRecv b s).busOut = s.busOut := rfl
@[simp] theorem hostRecv_svcOutT (b : Byte) (s : State) : (hostRecv b s).svcOutT = s.svcOutT := rfl
@[simp] theorem hostRecv_kpOut (b : Byte) (s : State) : (hostRecv b s).kpOut = s.kpOut := rfl
@[simp] theorem hostRecv_vmcColSense (b : Byte) (s : State) : (hostRecv b s).vmcColSense = s.vmcColSense := rfl
@[simp] theorem hostRecv_params (b : Byte) (s : State) : (hostRecv b s).params = s.params := rfl
@[simp] theorem hostRecv_schedule (b : Byte) (s : State) : (hostRecv b s).schedule = s.schedule := rfl
@[simp] theorem hostRecv_freeMoves (b : Byte) (s : State) : (hostRecv b s).freeMoves = s.freeMoves := rfl

@[simp] theorem returnFromInterrupt_eq (s : State) : returnFromInterrupt s = s := rfl
@[simp] theorem takeInterrupt_tick (s : State) : takeInterrupt .clockTick s = s := rfl
@[simp] theorem now_eq (s : State) : now s = s.clock := rfl

end Sys2Proof.Machine
end

