-- ==== Sys2Proof/Laws/Stores.lean ====
section
/-! SUPPORT. What each operation on a queue, a table or a line can do. -/

namespace Sys2Proof.Machine

/-! Queues. -/

@[simp] theorem qEmpty_nil : qEmpty [] = true := rfl

@[simp] theorem qEmpty_cons (b : Byte) (q : Queue) : qEmpty (b :: q) = false := rfl

theorem qEmpty_iff (q : Queue) : qEmpty q = true ↔ q = [] := by cases q <;> simp

theorem qFull_iff (q : Queue) : qFull q = true ↔ q.length = 128 := by simp [qFull, qCount, qCap]

theorem enqDrop_of_full {q : Queue} (h : qFull q = true) (b : Byte) : enqDrop q b = q := by simp [enqDrop, enq, h]

theorem enqDrop_of_room {q : Queue} (h : qFull q = false) (b : Byte) : enqDrop q b = q ++ [b] := by
  simp [enqDrop, enq, h]

/-- Enq either leaves the queue or puts the byte at its end. -/
theorem enqDrop_cases (q : Queue) (b : Byte) : enqDrop q b = q ∨ enqDrop q b = q ++ [b] := by
  cases h : qFull q
  · exact .inr (enqDrop_of_room h b)
  · exact .inl (enqDrop_of_full h b)

/-- Enq keeps the bound QCAP. -/
theorem qCount_enqDrop_le {q : Queue} (hq : qCount q ≤ qCap) (b : Byte) : qCount (enqDrop q b) ≤ qCap := by
  cases h : qFull q
  · simp only [qFull, qCount, qCap, beq_eq_false_iff_ne, ne_eq] at h hq ⊢
    rw [enqDrop_of_room (by simp [qFull, qCount, qCap, h])]
    simp only [List.length_append, List.length_singleton]
    omega
  · rwa [enqDrop_of_full h]

theorem mem_enqDrop {q : Queue} {b x : Byte} (h : x ∈ enqDrop q b) : x ∈ q ∨ x = b := by
  rcases enqDrop_cases q b with e | e <;> rw [e] at h
  · exact .inl h
  · simpa using h

/-! Tables. -/

@[simp] theorem gridGet_gridSet_same {α : Type} (g : Grid α) (p : Coord) (v : α) : gridGet (gridSet g p v) p = v := by
  simp [gridGet, gridSet]

theorem gridGet_gridSet_other {α : Type} (g : Grid α) {p q : Coord} (v : α) (h : p ≠ q) :
    gridGet (gridSet g p v) q = gridGet g q := by
  obtain ⟨pc, pr⟩ := p
  obtain ⟨qc, qr⟩ := q
  simp only [gridGet, gridSet, Fin.getElem_fin, Vector.getElem_set]
  split
  next hc =>
    obtain rfl : pc = qc := Fin.ext hc
    have hr : pr.val ≠ qr.val := fun e => h (by rw [Fin.ext e])
    simp [hr]
  next => rfl

/-! Lines. -/

theorem getLsbD_driveLine {n : Nat} (v : BitVec n) (i j : Nat) (l : Level) :
    (driveLine v i l).getLsbD j = if i = j ∧ i < n then l == .high else v.getLsbD j := by
  cases l <;> simp only [driveLine, BitVec.getLsbD_and, BitVec.getLsbD_or, BitVec.getLsbD_not, BitVec.getLsbD_twoPow]
  all_goals
    have hj : v.getLsbD j = true → j < n := fun hb => BitVec.lt_of_getLsbD hb
    by_cases hij : i = j <;> by_cases hi : i < n <;> simp_all

theorem senseLine_eq_low {n : Nat} (v : BitVec n) (i : Nat) : senseLine v i = .low ↔ v.getLsbD i = false := by
  simp only [senseLine]
  cases v.getLsbD i <;> simp

theorem senseLine_eq_high {n : Nat} (v : BitVec n) (i : Nat) : senseLine v i = .high ↔ v.getLsbD i = true := by
  simp only [senseLine]
  cases v.getLsbD i <;> simp

/-- Driving a line makes it read as driven. -/
theorem senseLine_driveLine_same {n : Nat} (v : BitVec n) {i : Nat} (hi : i < n) (l : Level) :
    senseLine (driveLine v i l) i = l := by
  cases l <;> simp only [senseLine, getLsbD_driveLine, hi, and_self, if_true] <;> rfl

/-- Driving a line changes no other line (20_memory.md R44, 70_reset_and_hazards.md R129). -/
theorem senseLine_driveLine_other {n : Nat} (v : BitVec n) {i j : Nat} (h : i ≠ j) (l : Level) :
    senseLine (driveLine v i l) j = senseLine v j := by
  simp [senseLine, getLsbD_driveLine, h]

/-- A line driven twice keeps the last level. -/
theorem driveLine_driveLine {n : Nat} (v : BitVec n) (i : Nat) (l l' : Level) :
    driveLine (driveLine v i l) i l' = driveLine v i l' := by
  apply BitVec.eq_of_getLsbD_eq
  intro j hj
  simp only [getLsbD_driveLine]
  split <;> rfl

@[simp] theorem driveLine_high_rest3 (c : Col) : driveLine 7#3 c .high = 7#3 := by
  revert c; decide

@[simp] theorem driveLine_high_rest7 (r : Row) : driveLine 127#7 r .high = 127#7 := by
  revert r; decide

/-- Whatever the column, a pulse leaves its row line HIGH and every other line as it was. -/
theorem runPulse_rowOut (d : Delays) (p : Pulse) (v : BitVec 7) :
    (runPulse d p v).rowOut = driveLine v p.row .high := by
  obtain ⟨c, r⟩ := p
  fin_cases c <;> simp [runPulse, pulseActs, pulseAct, driveLine_driveLine]

/-! The debounce comparison. -/

theorem accept_raw_iff (t d : Word) : accept .raw t d = true ↔ d.toNat < t.toNat := by simp [accept]

theorem accept_wrapSafe_iff (t d : Word) :
    accept .wrapSafe t d = true ↔ 1 ≤ (t - d).toNat ∧ (t - d).toNat ≤ 2 ^ 31 - 1 := by simp [accept]

theorem newDeadline_toNat (t : Word) : (newDeadline t).toNat = (t.toNat + 100) % 2 ^ 32 := by
  simp [newDeadline, tDebounce, BitVec.toNat_add]

/-! The service wait. -/

theorem svcDone_iff (s : State) : svcDone s = true ↔ 100 ≤ (s.clock - s.svcT0).toNat + s.params.svcTol := by
  have h : svcElapsed s = s.clock - s.svcT0 := rfl
  rw [svcDone, h, decide_eq_true_eq, tSvc]
  omega

end Sys2Proof.Machine
end

