-- ==== Sys2Proof/Laws/KeyMap.lean ====
section
/-! SUPPORT. What a legal key map gives (30_encoding.md R55). -/

namespace Sys2Proof.Machine

theorem mem_allCoords (p : Coord) : p ∈ allCoords := by
  obtain ⟨c, r⟩ := p
  simp [allCoords]

/-- The list of entries is the entries of the coordinates in scan order. -/
theorem keyBytesOf_eq_map (km : KeyMap) : keyBytesOf km.rows = allCoords.map (keyAt km) := by
  obtain ⟨rows, h⟩ := km
  obtain ⟨⟨l⟩, hl⟩ := rows
  match l, hl with
  | [r0, r1, r2], _ =>
    obtain ⟨⟨l0⟩, h0⟩ := r0
    obtain ⟨⟨l1⟩, h1⟩ := r1
    obtain ⟨⟨l2⟩, h2⟩ := r2
    match l0, h0, l1, h1, l2, h2 with
    | [_, _, _, _, _, _, _], _, [_, _, _, _, _, _, _], _, [_, _, _, _, _, _, _], _ => rfl

theorem keyBytes_nodup (km : KeyMap) : (keyBytesOf km.rows).Nodup := by
  have h := km.legal
  simp only [keyRowsLegal, Bool.and_eq_true, decide_eq_true_eq] at h
  exact h.1.1.1

/-- The key map is injective (R55 item 2). -/
theorem keyAt_injective (km : KeyMap) {p q : Coord} (h : keyAt km p = keyAt km q) : p = q := by
  have hn := keyBytes_nodup km
  rw [keyBytesOf_eq_map] at hn
  exact List.inj_on_of_nodup_map hn (mem_allCoords p) (mem_allCoords q) h

/-- Every value is one of the 22 listed bytes (R55 item 3). -/
theorem keyAt_listed (km : KeyMap) (p : Coord) : keyAt km p ∈ digitBytes ++ letterBytes := by
  have h := km.legal
  simp only [keyRowsLegal, Bool.and_eq_true, List.all_eq_true] at h
  have hp : keyAt km p ∈ keyBytesOf km.rows := by
    rw [keyBytesOf_eq_map]
    exact List.mem_map_of_mem (mem_allCoords p)
  exact List.contains_iff_mem.mp (h.1.1.2 _ hp)

/-- Every digit is a value (R55 item 4). -/
theorem digit_is_key (km : KeyMap) {b : Byte} (hb : b ∈ digitBytes) : ∃ p, keyAt km p = b := by
  have h := km.legal
  simp only [keyRowsLegal, Bool.and_eq_true, List.all_eq_true] at h
  have := List.contains_iff_mem.mp (h.1.2 _ hb)
  rw [keyBytesOf_eq_map, List.mem_map] at this
  obtain ⟨p, -, hp⟩ := this
  exact ⟨p, hp⟩

/-- `KEYMAP[1][3] = '5'` (R55 item 6). -/
theorem keyAt_one_three (km : KeyMap) : keyAt km ⟨1, 3⟩ = 0x35 := by
  have h := km.legal
  simp only [keyRowsLegal, Bool.and_eq_true, beq_iff_eq] at h
  exact h.2

/-- `'s'` is no key byte, so the order of classify's tests only fixes a spelling (30_encoding.md R58). -/
theorem keyAt_ne_svcByte (km : KeyMap) (p : Coord) : keyAt km p ≠ svcByte := by
  intro h
  have := keyAt_listed km p
  rw [h] at this
  revert this
  decide

/-- What the inverse lookup finds is a coordinate of the byte. -/
theorem keyAt_of_keyMapInv {km : KeyMap} {b : Byte} {p : Coord} (h : keyMapInv km b = some p) : keyAt km p = b := by
  simpa using List.find?_some h

/-- A byte outside the listed 22 is not found. -/
theorem keyMapInv_unlisted (km : KeyMap) {b : Byte} (h : b ∉ digitBytes ++ letterBytes) : keyMapInv km b = none := by
  cases e : keyMapInv km b with
  | none => rfl
  | some p => exact absurd (keyAt_of_keyMapInv e ▸ keyAt_listed km p) h

end Sys2Proof.Machine
end

