-- ==== Sys2Proof/Laws/Acts.lean ====
section
/-! SUPPORT. What a move can do, said once: every proof about a step splits on `act_cases`, not on the definitions. -/

namespace Sys2Proof.Machine

/-- The ways a move leads from `s` to a next state, with the guard of each. -/
inductive ActCase : Move → State → State → Prop
  | disabled {m s} (h : enabled m s = false) : ActCase m s s
  | tick {s} : ActCase .tick s { s with clock := s.clock + 1 }
  | bus {c l s} : ActCase (.bus c l) s (busMove c l s)
  | pcnIgnored {s} (hp : s.cnPending = true) (hg : pcnGuard s = none) : ActCase .pcn s { s with cnPending := false }
  | pcnFired {s p} (hp : s.cnPending = true) (hg : pcnGuard s = some p) :
      ActCase .pcn s (firePulse p { s with cnPending := false })
  | recv {b s} (hx : s.ph = .xfer) (hf : qFull s.h2d = false) : ActCase (.hostRecv b) s { s with h2d := s.h2d ++ [b] }
  | sent {b q s} (hx : s.ph = .xfer) (hd : s.d2h = b :: q) :
      ActCase (.hostSend .success) s { s with d2h := q, d2hOut := s.d2hOut ++ [b] }
  | retry {s} (hx : s.ph = .xfer) (hd : s.d2h ≠ []) : ActCase (.hostSend .retryLater) s s
  | lost {b q s} (hx : s.ph = .xfer) (hd : s.d2h = b :: q) : ActCase (.hostSend (.error true)) s { s with d2h := q }
  | kept {s} (hx : s.ph = .xfer) (hd : s.d2h ≠ []) : ActCase (.hostSend (.error false)) s s
  | xfer {k s} (hx : s.ph = .xfer) : ActCase (.main k) s (xfer s)
  | scanDrive {k s c} (hx : s.ph = .scanDrive c) : ActCase (.main k) s (scanDrive c s)
  | rowPassed {k s c} {r : Row} (hx : s.ph = .scanRow c r)
      (hl : senseLine k r = .high ∨ accept s.params.debounceCmp s.clock (gridGet s.dl ⟨c, r⟩) = false) :
      ActCase (.main k) s (setPhase (afterRow c r) s)
  | rowAccepted {k s c} {r : Row} (hx : s.ph = .scanRow c r) (hl : senseLine k r = .low)
      (ha : accept s.params.debounceCmp s.clock (gridGet s.dl ⟨c, r⟩) = true) :
      ActCase (.main k) s (setPhase (afterRow c r) (acceptPress ⟨c, r⟩ s.clock s))
  | scanRelease {k s c} (hx : s.ph = .scanRelease c) : ActCase (.main k) s (scanRelease c s)
  | decodeNothing {k s} (hx : s.ph = .decode) (hn : s.h2d = [] ∨ s.arm.col ≠ none) : ActCase (.main k) s (setPhase .xfer s)
  | decodeSelect {k s b q p} (hx : s.ph = .decode) (hi : s.arm.col = none) (hq : s.h2d = b :: q)
      (hb : classify s.keyMap b = .select p) : ActCase (.main k) s (select p { s with h2d := q })
  | decodeService {k s b q} (hx : s.ph = .decode) (hi : s.arm.col = none) (hq : s.h2d = b :: q)
      (hb : classify s.keyMap b = .service) : ActCase (.main k) s (service { s with h2d := q })
  | decodeIgnore {k s b q} (hx : s.ph = .decode) (hi : s.arm.col = none) (hq : s.h2d = b :: q)
      (hb : classify s.keyMap b = .ignore) : ActCase (.main k) s (setPhase .xfer { s with h2d := q })
  | ack {k s} (hx : s.ph = .ack) : ActCase (.main k) s (acknowledge s)
  | svcRelease {k s} (hx : s.ph = .svcWait) (hd : svcDone s = true) : ActCase (.main k) s (svcRelease s)

/-- What the command of a byte does, by the class of the byte. -/
theorem exec_decodeByte_cases (b : Byte) (s : State) :
    (∃ p, classify s.keyMap b = .select p ∧ exec (decodeByte b) s = .next (select p s))
    ∨ (classify s.keyMap b = .service ∧ exec (decodeByte b) s = .next (service s))
    ∨ (classify s.keyMap b = .ignore ∧ exec (decodeByte b) s = .next (ignoreByte s)) := by
  have key : ∀ b, exec (decodeByte b) s = .next (selectByte b s) → b ≠ svcByte →
      (∃ p, classify s.keyMap b = .select p ∧ exec (decodeByte b) s = .next (select p s))
      ∨ (classify s.keyMap b = .service ∧ exec (decodeByte b) s = .next (service s))
      ∨ (classify s.keyMap b = .ignore ∧ exec (decodeByte b) s = .next (ignoreByte s)) := by
    intro b h hb
    cases e : keyMapInv s.keyMap b with
    | some p => exact .inl ⟨p, by simp [classify, hb, e], by simp [h, selectByte, e]⟩
    | none => exact .inr (.inr ⟨by simp [classify, hb, e], by simp [h, selectByte, e]⟩)
  by_cases hl : b ∈ digitBytes ++ letterBytes
  · fin_cases hl <;> exact key _ rfl (by decide)
  · by_cases hs : b = svcByte
    · subst hs
      exact .inr (.inl ⟨rfl, rfl⟩)
    · have hd : decodeByte b = .ign b := by revert hl hs; revert b; decide
      refine .inr (.inr ⟨by simp [classify, hs, keyMapInv_unlisted _ hl], ?_⟩)
      rw [hd]
      rfl

/-- One DECODE step. -/
theorem decodeStep_cases {k : BitVec 7} {s t : State} (hp : s.ph = .decode) (h : decodeStep s = .next t) :
    ActCase (.main k) s t := by
  unfold decodeStep at h
  split at h
  next hn =>
    simp only [Host.Outcome.next.injEq] at h
    refine h ▸ .decodeNothing hp ?_
    simpa [qEmpty_iff, idle, Option.isSome_iff_ne_none] using hn
  next hn =>
    simp only [Bool.or_eq_true, Bool.not_eq_true', not_or, Bool.not_eq_true, Bool.not_eq_false, idle,
      Option.isNone_iff_eq_none] at hn
    cases hq : s.h2d with
    | nil => simp [hq] at hn
    | cons b q =>
      rw [hq] at h
      rcases exec_decodeByte_cases b { s with h2d := q } with ⟨p, hc, e⟩ | ⟨hc, e⟩ | ⟨hc, e⟩ <;>
        simp only [deq, e, Host.Outcome.next.injEq] at h
      · exact h ▸ .decodeSelect hp hn.2 hq hc
      · exact h ▸ .decodeService hp hn.2 hq hc
      · exact h ▸ .decodeIgnore hp hn.2 hq hc

/-- One step of MAIN, where it is enabled. -/
theorem mainStep_cases {k : BitVec 7} {s t : State} (he : mainEnabled s = true) (h : mainStep k s = .next t) :
    ActCase (.main k) s t := by
  cases hp : s.ph with
  | xfer => simp only [mainStep, hp, Host.Outcome.next.injEq] at h; exact h ▸ .xfer hp
  | scanDrive c => simp only [mainStep, hp, Host.Outcome.next.injEq] at h; exact h ▸ .scanDrive hp
  | scanRow c r =>
    simp only [mainStep, hp, Host.Outcome.next.injEq, scanRow, qualifyPress, now_eq] at h
    cases hl : senseLine k r with
    | high => rw [hl] at h; exact h ▸ .rowPassed hp (.inl hl)
    | low =>
      cases ha : accept s.params.debounceCmp s.clock (gridGet s.dl ⟨c, r⟩) with
      | true =>
        simp only [hl, ha, if_true] at h
        exact h ▸ .rowAccepted hp hl ha
      | false =>
        simp only [hl, ha, Bool.false_eq_true, if_false] at h
        exact h ▸ .rowPassed hp (.inr ha)
  | scanRelease c => simp only [mainStep, hp, Host.Outcome.next.injEq] at h; exact h ▸ .scanRelease hp
  | ack => simp only [mainStep, hp, Host.Outcome.next.injEq] at h; exact h ▸ .ack hp
  | svcWait =>
    simp only [mainStep, hp, Host.Outcome.next.injEq] at h
    simp only [mainEnabled, hp] at he
    exact h ▸ .svcRelease hp he
  | decode => exact decodeStep_cases hp (by simpa only [mainStep, hp] using h)

/-- Whatever move leads to a next state, one of the cases holds. -/
theorem act_cases {m : Move} {s t : State} (h : act m s = .next t) : ActCase m s t := by
  cases he : enabled m s with
  | false =>
    simp only [act, he, Bool.false_eq_true, if_false, Host.Outcome.next.injEq] at h
    exact h ▸ .disabled he
  | true =>
    simp only [act, he, if_true] at h
    cases m with
    | main k => exact mainStep_cases he h
    | tick =>
      simp only [perform, Host.Outcome.next.injEq] at h
      exact h ▸ .tick
    | bus c l =>
      simp only [perform, Host.Outcome.next.injEq] at h
      exact h ▸ .bus
    | pcn =>
      simp only [perform, Host.Outcome.next.injEq, pcn, returnFromInterrupt_eq, pcnHandler] at h
      have hg : pcnGuard (takeInterrupt .pinChange s) = pcnGuard s := rfl
      rw [hg] at h
      cases e : pcnGuard s with
      | none => rw [e] at h; exact h ▸ .pcnIgnored he e
      | some p => rw [e] at h; exact h ▸ .pcnFired he e
    | hostRecv b =>
      simp only [enabled, Bool.and_eq_true, beq_iff_eq, Bool.not_eq_true'] at he
      simp only [perform, hostRecv, enqDrop_of_room he.2, Host.Outcome.next.injEq] at h
      exact h ▸ .recv he.1 he.2
    | hostSend o =>
      simp only [enabled, Bool.and_eq_true, beq_iff_eq, Bool.not_eq_true'] at he
      cases hd : s.d2h with
      | nil => simp [hd] at he
      | cons b q =>
        simp only [perform, hostSend, hd, peek] at h
        cases o with
        | success =>
          simp only [takeD2H, hd, deq, if_true, Host.Outcome.next.injEq] at h
          exact h ▸ .sent he.1 hd
        | retryLater =>
          simp only [Host.Outcome.next.injEq] at h
          exact h ▸ .retry he.1 (by simp [hd])
        | error dropped =>
          cases dropped with
          | true =>
            simp only [takeD2H, hd, deq, Bool.false_eq_true, if_false, Host.Outcome.next.injEq] at h
            exact h ▸ .lost he.1 hd
          | false =>
            simp only [Host.Outcome.next.injEq] at h
            exact h ▸ .kept he.1 (by simp [hd])

/-- Every move leads to a next state: its guard keeps Deq and Peek from an empty queue. -/
theorem act_next (m : Move) (s : State) : ∃ t, act m s = .next t := by
  cases he : enabled m s with
  | false => exact ⟨s, by simp [act, he]⟩
  | true =>
    simp only [act, he, if_true]
    cases m with
    | tick => exact ⟨_, rfl⟩
    | pcn => exact ⟨_, rfl⟩
    | hostRecv b => exact ⟨_, rfl⟩
    | bus c l => exact ⟨_, rfl⟩
    | hostSend o =>
      simp only [enabled, Bool.and_eq_true, Bool.not_eq_true'] at he
      cases hd : s.d2h with
      | nil => simp [hd] at he
      | cons b q =>
        rcases o with _ | _ | _ | _ <;> simp [perform, hostSend, takeD2H, hd, peek, deq]
    | main k =>
      simp only [perform, mainStep]
      cases s.ph <;> try exact ⟨_, rfl⟩
      simp only [decodeStep]
      split
      · exact ⟨_, rfl⟩
      next hq =>
        cases hd : s.h2d with
        | nil => simp [hd] at hq
        | cons b q =>
          rcases exec_decodeByte_cases b { s with h2d := q } with ⟨p, -, e⟩ | ⟨-, e⟩ | ⟨-, e⟩ <;>
            exact ⟨_, by simpa [deq] using e⟩

/-- A step is a move of the state without that move. -/
theorem step_eq_act (s : State) : step s = act (nextMove s).1 (nextMove s).2 := rfl

end Sys2Proof.Machine
end

