-- ==== Sys2Proof/Laws/PerInstr.lean ====
section
/-! SUPPORT. Statements made per constructor of Instr: the family OneByte. -/

namespace Sys2Proof.Laws.OneByte

/-- A command is exactly one byte (30_encoding.md R52, R53). -/
def Statement (i : Instr) : Prop := (encode i).length = 1

theorem sel0 : Statement .sel0 := rfl
theorem sel1 : Statement .sel1 := rfl
theorem sel2 : Statement .sel2 := rfl
theorem sel3 : Statement .sel3 := rfl
theorem sel4 : Statement .sel4 := rfl
theorem sel5 : Statement .sel5 := rfl
theorem sel6 : Statement .sel6 := rfl
theorem sel7 : Statement .sel7 := rfl
theorem sel8 : Statement .sel8 := rfl
theorem sel9 : Statement .sel9 := rfl
theorem selA : Statement .selA := rfl
theorem selB : Statement .selB := rfl
theorem selC : Statement .selC := rfl
theorem selD : Statement .selD := rfl
theorem selE : Statement .selE := rfl
theorem selF : Statement .selF := rfl
theorem selG : Statement .selG := rfl
theorem selH : Statement .selH := rfl
theorem selI : Statement .selI := rfl
theorem selJ : Statement .selJ := rfl
theorem selK : Statement .selK := rfl
theorem selL : Statement .selL := rfl
theorem svc : Statement .svc := rfl
theorem ign (b : Byte) : Statement (.ign b) := rfl

end Sys2Proof.Laws.OneByte
end

