-- ==== Sys2Proof/Machine/Script.lean ====
section
/-! DEFINITION. The spec's script notation for a run's schedule (30_encoding.md R63), run with the reference keypad
(41_matrix_scanner.md R73). It drives the machine from outside; no step of the machine reads it. -/

namespace Sys2Proof.Machine

/-- A line of a script (30_encoding.md R63).
DESIGN CHOICE (log 18), safe: R63 lets an `iter` line hold TICK steps "unless the line says otherwise" and gives no form in
which a line says so. Here `iter` never holds a TICK, and no line can ask for one: ticks are `tick` lines, between
iterations. A run with a TICK inside an iteration is a list of moves (`runMoves`), not a script. -/
inductive Action where
  | host (bytes : List Byte)
  | drain
  | iter
  | tick (n : Nat)
  | press (p : Coord)
  | release (p : Coord)
  | bus (c : Col) (l : Level)
  | pcn
  deriving DecidableEq, Repr

/-- A machine under a script: the pressed keys, and what HOST will do in the next XFER phase. -/
structure Bench where
  machine : State
  pressed : List Coord
  toInsert : List Byte
  toDrain : Bool
  deriving DecidableEq, Repr

/-- One move of the machine; a stopped machine stays. -/
def benchMove (m : Move) (b : Bench) : Bench :=
  match act m b.machine with
  | .next t => { b with machine := t }
  | .fault _ => b
  | .refused _ => b

/-- The same move `n` times. -/
def benchRepeat (m : Move) : Nat → Bench → Bench
  | 0, b => b
  | n + 1, b => benchRepeat m n (benchMove m b)

/-- HOST inserts the waiting bytes in order, as long as H2D has room; the rest wait (log 18). -/
def benchInsert : List Byte → Bench → Bench
  | [], b => { b with toInsert := [] }
  | x :: rest, b =>
    if qFull b.machine.h2d then { b with toInsert := x :: rest }
    else benchInsert rest (benchMove (.hostRecv x) b)

/-- HOST removes every byte of D2H into D2H_OUT, if a drain waits. -/
def benchDrain (b : Bench) : Bench :=
  if b.toDrain then { benchRepeat (.hostSend .success) (qCount b.machine.d2h) b with toDrain := false } else b

/-- HOST's waiting moves, where this is an XFER phase. -/
def benchHost (b : Bench) : Bench :=
  if b.machine.ph = .xfer then benchDrain (benchInsert b.toInsert b) else b

/-- MAIN's step with the reference keypad's levels. -/
def benchMain (b : Bench) : Bench := benchMove (.main (referenceKeypad b.pressed b.machine.kpColOut)) b

/-- MAIN runs on until XFER, for at most `n` steps (SVC_WAIT may hold it). -/
def benchToXfer : Nat → Bench → Bench
  | 0, b => b
  | n + 1, b => if b.machine.ph = .xfer then b else benchToXfer n (benchMain b)

/-- One line of a script; an `iter` line makes MAIN and HOST moves only, never a TICK (log 18). An iteration has at most
30 steps (40_sequencer.md R65), the first of them taken from XFER.
DESIGN CHOICE (log 18), safe: R63 does not say what an `iter` line does where PH is not XFER (in SVC_WAIT, say, after an
`iter` that took `'s'`). It only finishes the iteration under way: MAIN moves until XFER, 30 times at most, and no full
iteration follows; where the service wait is not over, these are idle turns and PH stays SVC_WAIT. -/
def runAction (b : Bench) : Action → Bench
  | .host bytes => benchHost { b with toInsert := b.toInsert ++ bytes }
  | .drain => benchHost { b with toDrain := true }
  | .iter => benchToXfer 29 (benchMain (benchHost b))
  | .tick n => benchRepeat .tick n b
  | .press p => { b with pressed := p :: b.pressed }
  | .release p => { b with pressed := b.pressed.filter (· != p) }
  | .bus c l => benchMove (.bus c l) b
  | .pcn => benchMove .pcn b

/-- A script, line by line, from the machine `s` with no key pressed. -/
def runScript (s : State) (script : List Action) : Bench :=
  script.foldl runAction { machine := s, pressed := [], toInsert := [], toDrain := false }

end Sys2Proof.Machine
end

