-- ==== Sys2Proof/Tests/Slice0.lean ====
section
/-! SUPPORT. The model's own tests: the words of the opcode table, WellFormed, single steps from spec/95_test_vectors.md,
and for every statement with hypotheses a state and operands that meet them (`witness_…`, named by the statement). -/

namespace Sys2Proof.Tests

open Sys2Proof.Machine

/-! Decoding: every row of spec/opcode_table.json, its byte written out from the column "encoding". -/

theorem test_decode_digits :
    [0b00110000, 0b00110001, 0b00110010, 0b00110011, 0b00110100, 0b00110101, 0b00110110, 0b00110111, 0b00111000,
      0b00111001].map decodeByte =
      [.sel0, .sel1, .sel2, .sel3, .sel4, .sel5, .sel6, .sel7, .sel8, .sel9] := by decide

theorem test_decode_letters :
    [0b01100001, 0b01100010, 0b01100011, 0b01100100, 0b01100101, 0b01100110, 0b01100111, 0b01101000, 0b01101001,
      0b01101010, 0b01101011, 0b01101100].map decodeByte =
      [.selA, .selB, .selC, .selD, .selE, .selF, .selG, .selH, .selI, .selJ, .selK, .selL] := by decide

theorem test_decode_service : decodeByte 0b01110011 = .svc := by decide

/-- The neighbours of the named bytes, upper case and `'='` (30_encoding.md R59). -/
theorem test_decode_ignored :
    [0b00101111, 0b00111010, 0b01100000, 0b01101101, 0b01010011, 0b01000001, 0b00111101, 0b00000000, 0b11111111].map
      decodeByte =
      [.ign 0x2F, .ign 0x3A, .ign 0x60, .ign 0x6D, .ign 0x53, .ign 0x41, .ign 0x3D, .ign 0x00, .ign 0xFF] := by decide

theorem test_decode_table_word : decodeTableWord 8 0x6C = some .selL ∧ decodeTableWord 16 0x6C = none := by decide

theorem test_decode_nothing : decode [] = .error .noByte := by decide

/-! WellFormed refuses an IGN on a byte of another row. -/

theorem test_wf_refuses_ign_of_digit : (Instr.ign 0x30).wf = false := by decide

theorem test_wf_refuses_ign_of_letter : (Instr.ign 0x6C).wf = false := by decide

theorem test_wf_refuses_ign_of_service : (Instr.ign 0x73).wf = false := by decide

theorem test_wf_allows_ign_of_equals : (Instr.ign 0x3D).wf = true := by decide

/-! A machine with every open parameter fixed: the legal layout `someKeyRows` ('5' at (1, 3), 'l' reserved, '0' at (0, 0),
'k' at (2, 6)), CN_SRC = {0, 1}, RAW, SVC_TOL = 1, every duration 1, all sense lines HIGH. -/

def base : State :=
  { State.reset with
    keyMap := {}
    params := { cnSrc := .cols01, debounceCmp := .raw, svcTol := 1, delays := {} }
    vmcColSense := 0b111 }

def basePhase (p : Phase) : State := { base with ph := p }

/-- `base` armed at (c, r), its pulse interrupt pending, the sense lines at `sense`. -/
def baseArmed (c : Col) (r : Row) (sense : BitVec 3) : State :=
  { base with arm := ⟨some c, r⟩, cnPending := true, vmcColSense := sense }

/-- `base` at DECODE with the bytes `q` waiting. -/
def baseDecode (q : List Byte) : State := { base with ph := .decode, h2d := q }

/-- `base` at SCAN_ROW(1, 3) with CLOCK and DL[1][3] given. -/
def baseRow (clock deadline : Word) : State :=
  { base with ph := .scanRow 1 3, clock := clock, dl := gridSet base.dl ⟨1, 3⟩ deadline }

/-- `base` in SVC_WAIT since `t0`. -/
def baseWait (t0 clock : Word) (tol : Nat) : State :=
  { base with
    ph := .svcWait, svcOut := .low, svcT0 := t0, clock := clock, svcOutT := [.svcLow]
    params := { base.params with svcTol := tol } }

/-- The state after a move; the state itself if the machine stopped. -/
def after (m : Move) (s : State) : State :=
  match act m s with
  | .next t => t
  | .fault _ => s
  | .refused _ => s

def afterAll (ms : List Move) (s : State) : State := ms.foldl (fun s m => after m s) s

theorem act_after (m : Move) (s : State) : act m s = .next (after m s) := by
  obtain ⟨t, ht⟩ := act_next m s
  rw [after, ht]

theorem runMoves_afterAll (ms : List Move) (s : State) : runMoves ms s = .next (afterAll ms s) := by
  induction ms generalizing s with
  | nil => rfl
  | cons m ms ih => rw [runMoves, act_after]; exact ih (after m s)

/-- The state after a command; the state itself if the machine stopped. -/
def commanded (i : Instr) (s : State) : State :=
  match exec i s with
  | .next t => t
  | .fault _ => s
  | .refused _ => s

/-! Commands. `base` fixes the layout, so the coordinates are the layout's. -/

theorem test_select_digit_ends_of_table :
    (commanded .sel0 base).arm = ⟨some 0, 0⟩ ∧ (commanded .sel7 base).arm = ⟨some 0, 6⟩ := by decide

/-- 95_test_vectors.md 2.6, row 4. -/
theorem test_select_five : armWord (commanded .sel5 base).arm = 0b01011 ∧ (commanded .sel5 base).ph = .ack := by decide

theorem test_select_last_letter : (commanded .selK base).arm = ⟨some 2, 6⟩ := by decide

/-- The reserved letter is ignored (95_test_vectors.md 2.5). -/
theorem test_reserved_letter_ignored : commanded .selL (basePhase .decode) = basePhase .xfer := by decide

/-- 95_test_vectors.md 2.6, row 8. -/
theorem test_service :
    (commanded .svc { base with clock := 500 }).svcT0 = 500 ∧ (commanded .svc base).svcOut = .low ∧
      (commanded .svc base).svcOutT = [.svcLow] := by decide

/-- 95_test_vectors.md 2.6, row 7. -/
theorem test_ignore_x : after (.main 0x7F) (baseDecode [0x78]) = base := by decide

/-! Steps, from 95_test_vectors.md 2.1 to 2.7. -/

theorem test_tick_carries : (after .tick { base with clock := 0x7FFFFFFF }).clock = 0x80000000 := by decide

theorem test_tick_wraps : (after .tick { base with clock := 0xFFFFFFFF }).clock = 0 := by decide

theorem test_enq_last_place :
    (enq (List.replicate 127 0x35) 0x3D).1 = .ok ∧ (enqDrop (List.replicate 127 0x35) 0x3D).getLast? = some 0x3D ∧
      (enq (List.replicate 128 0x35) 0x3D).1 = .fail := by decide +kernel

theorem test_deq_head : deq [0x35, 0x3D] = .ok (0x35, [0x3D]) := rfl

theorem test_accept_raw :
    [((0 : Word), (0 : Word)), (1, 0), (100, 100), (101, 100), (5, 0xFFFFFFF0), (0x80000001, 0), (0xFFFFFFC1, 0x24)].map
      (fun x => accept .raw x.1 x.2) = [false, true, false, true, false, true, true] := by decide

theorem test_accept_wrapSafe :
    [((0 : Word), (0 : Word)), (101, 100), (5, 0xFFFFFFF0), (0x80000001, 0), (0x7FFFFFFF, 0), (0xFFFFFFC1, 0x24)].map
      (fun x => accept .wrapSafe x.1 x.2) = [false, true, true, false, true, false] := by decide

theorem test_new_deadline_wraps : newDeadline 0xFFFFFF9B = 0xFFFFFFFF ∧ newDeadline 0xFFFFFF9C = 0 := by decide

theorem test_scan_drive :
    (after (.main 0x7F) (basePhase (.scanDrive 0))).kpColOut = 0b110 ∧
      (after (.main 0x7F) (basePhase (.scanDrive 0))).kpOut = [.colLow 0] := by decide

theorem test_scan_row_accepts :
    (after (.main 0b1110111) (baseRow 10 0)).d2h = [0x35] ∧
      gridGet (after (.main 0b1110111) (baseRow 111 110)).dl ⟨1, 3⟩ = 211 := by decide

theorem test_scan_row_rejects :
    after (.main 0b1110111) (baseRow 110 110) = { baseRow 110 110 with ph := .scanRow 1 4 } ∧
      after (.main 0b1111111) (baseRow 10 0) = { baseRow 10 0 with ph := .scanRow 1 4 } := by decide

theorem test_scan_row_full_queue :
    (after (.main 0) { base with ph := .scanRow 0 6, clock := 50, d2h := List.replicate 128 0x30 }).d2h =
        List.replicate 128 0x30 ∧
      gridGet (after (.main 0) { base with ph := .scanRow 0 6, clock := 50, d2h := List.replicate 128 0x30 }).dl ⟨0, 6⟩ =
        150 := by decide +kernel

theorem test_scan_release :
    (after (.main 0x7F) { base with ph := .scanRelease 2, kpColOut := 0b011 }).kpColOut = 0b111 ∧
      (after (.main 0x7F) { base with ph := .scanRelease 2, kpColOut := 0b011 }).ph = .decode := by decide

theorem test_decode_waits_while_armed :
    after (.main 0x7F) { baseDecode [0x73] with arm := ⟨some 0, 2⟩ } =
      { baseDecode [0x73] with arm := ⟨some 0, 2⟩, ph := .xfer } := by decide

theorem test_ack_full : (after (.main 0x7F) { basePhase .ack with d2h := List.replicate 128 0x30 }).d2h =
    List.replicate 128 0x30 := by decide +kernel

theorem test_svc_wait_boundary :
    mainEnabled (baseWait 500 598 1) = false ∧ mainEnabled (baseWait 500 599 1) = true ∧
      mainEnabled (baseWait 500 599 0) = false ∧ mainEnabled (baseWait 0xFFFFFFD0 0x33 1) = true := by decide

theorem test_svc_release :
    (after (.main 0x7F) (baseWait 500 600 1)).svcOut = .hiz ∧
      (after (.main 0x7F) (baseWait 500 600 1)).svcOutT = [.svcLow, .svcRelease] := by decide

theorem test_change_notification :
    [((1 : Col), Level.low, (0b111 : BitVec 3)), (0, .high, 0b110), (2, .low, 0b111), (1, .low, 0b101)].map
      (fun x => (after (.bus x.1 x.2.1) { base with vmcColSense := x.2.2 }).cnPending) = [true, true, false, false] := by
  decide

theorem test_pulse_fires :
    armWord (after .pcn (baseArmed 1 3 0b101)).arm = 0b11011 ∧ (after .pcn (baseArmed 1 3 0b101)).busOut = [⟨1, 3⟩] ∧
      (after .pcn (baseArmed 0 4 0b000)).busOut = [⟨0, 4⟩] ∧
      (after .pcn (baseArmed 1 3 0b101)).vmcRowOut = 0b1111111 := by decide

theorem test_pulse_other_column :
    after .pcn (baseArmed 1 3 0b110) = { baseArmed 1 3 0b110 with cnPending := false } := by decide

/-- 43_pulse_generator.md R96 with every duration 1. -/
theorem test_waveforms :
    pulseWaveform {} ⟨0, 0⟩ = [⟨.high, 2⟩, ⟨.low, 1⟩, ⟨.high, 2⟩, ⟨.low, 1⟩] ∧
      pulseWaveform {} ⟨1, 3⟩ = [⟨.high, 2⟩, ⟨.low, 1⟩, ⟨.high, 1⟩, ⟨.low, 1⟩] ∧
      pulseWaveform {} ⟨2, 6⟩ = [⟨.high, 2⟩, ⟨.low, 2⟩] := by decide +kernel

/-- A command placed by `withFetchWord` runs as the first step after reset. -/
theorem test_fetch_word_runs :
    ∃ t, step (State.reset.withFetchWord 8 0x73) = .next t ∧ t.ph = .svcWait ∧ t.h2d = [] := ⟨_, rfl, rfl, rfl⟩

/-- Program P1 of 95_test_vectors.md, its lines 1 to 4. -/
theorem test_script_arm_and_fire :
    (runScript base [.host [0x35], .iter, .bus 1 .low, .pcn]).machine.busOut = [⟨1, 3⟩] := by decide +kernel

/-- An `iter` line in SVC_WAIT only ends the service wait, or waits on (log 18; a choice of the model, not of R63). -/
theorem test_script_iter_in_svc_wait :
    (runScript (baseWait 500 600 1) [.iter]).machine.ph = .xfer ∧ (runScript (baseWait 500 600 1) [.iter]).machine.kpOut = [] ∧
      (runScript (baseWait 500 598 1) [.iter]).machine.ph = .svcWait := by decide

/-! Witnesses: what a statement's hypotheses ask can be met. -/

theorem base_inv : BlockInv base where
  h2dBound := by decide
  d2hBound := by decide
  rowsAtRest := rfl
  cols := rfl
  svcLine := by decide
  svcIdle := by decide
  responses := by simp [base, State.reset]
  svcTrace := ⟨0, rfl⟩

theorem baseWait_inv : BlockInv (baseWait 500 599 1) where
  h2dBound := by decide
  d2hBound := by decide
  rowsAtRest := rfl
  cols := rfl
  svcLine := by decide
  svcIdle := by decide
  responses := by simp [baseWait, base, State.reset]
  svcTrace := ⟨0, rfl⟩

theorem witness_StepKeepsBlockInv :
    (∃ s t, BlockInv s ∧ s.schedule = [.tick] ∧ step s = .next t) ∧
      (∃ s t, BlockInv s ∧ s.ph = .svcWait ∧ step s = .next t ∧ t.ph = .xfer) :=
  ⟨⟨{ base with schedule := [.tick] }, _, { base_inv with }, rfl, rfl⟩,
    ⟨{ baseWait 500 599 1 with schedule := [.main 0] }, _, { baseWait_inv with }, rfl, rfl, rfl⟩⟩

theorem witness_StepRunsDecodedCommand :
    ∃ (s : State) (k : BitVec 7) (ms : List Move) (b : Byte) (q : List Byte) (i : Instr), s.schedule = .main k :: ms ∧ s.ph = .decode ∧ s.arm.col = none ∧
      s.h2d = b :: q ∧ decode [b] = .ok (i, []) :=
  ⟨{ baseDecode [0x35] with schedule := [.main 0] }, 0, [], 0x35, [], .sel5, rfl, rfl, rfl, rfl, rfl⟩

theorem witness_StepTakesNextMove : (∃ (s : State) (m : Move) (ms : List Move), s.schedule = m :: ms) ∧ (∃ s : State, s.schedule = []) :=
  ⟨⟨{ base with schedule := [.tick] }, .tick, [], rfl⟩, ⟨base, rfl⟩⟩

theorem witness_DecodeOfEncodeRoundTrip :
    (Instr.ign 0x00).wf = true ∧ (Instr.ign 0xFF).wf = true ∧ Instr.selL.wf = true := by decide

theorem witness_KeyMapConstraints : (0x30 : Byte) ∈ digitBytes ∧ (0x39 : Byte) ∈ digitBytes := by decide

theorem witness_KeyMapInverseFindsExactly :
    keyMapInv {} 0x35 = some ⟨1, 3⟩ ∧ keyMapInv {} 0x6C = none ∧ keyAt {} ⟨2, 6⟩ = 0x6B ∧ base.keyMap = {} := by decide

theorem witness_ByteClassesPartition :
    (0x6B : Byte) ∈ letterBytes ∧ (0x6B : Byte) ≠ 0x6C ∧ reservedByte {} = some 0x6C ∧ (0xFF : Byte) ∉ namedBytes := by
  decide

theorem witness_NoByteStops : classify base.keyMap 0xFF = .ignore ∧ reservedByte base.keyMap = some 0x6C := by decide

theorem witness_DigitCommandsArm :
    (Instr.sel9, (0x39 : Byte)) ∈ [(Instr.sel0, (0x30 : Byte)), (.sel9, 0x39)] ∧ keyAt base.keyMap ⟨1, 1⟩ = 0x39 := by
  decide

theorem witness_LetterCommandsArmOrIgnore :
    keyAt base.keyMap ⟨1, 2⟩ = 0x61 ∧ ∀ p ∈ allCoords, keyAt base.keyMap p ≠ 0x6C := by decide

theorem witness_ServiceCommandEffect :
    (∃ s q, s.ph = .decode ∧ State.h2d s = 0x73 :: q ∧ s.arm.col = none) ∧
      (∃ s q, s.ph = .decode ∧ State.h2d s = 0x73 :: q ∧ s.arm.col ≠ none) ∧ (∃ s : State, s.ph = .svcWait) :=
  ⟨⟨baseDecode [0x73], [], rfl, rfl, rfl⟩, ⟨{ baseDecode [0x73] with arm := ⟨some 0, 2⟩ }, [], rfl, rfl, by decide⟩,
    ⟨baseWait 0 0 1, rfl⟩⟩

theorem witness_IgnoreCommandEffect : classify base.keyMap 0x6D = .ignore ∧ reservedByte base.keyMap = some 0x6C := by
  decide

theorem witness_EnqRejectsWhenFull :
    (∃ q : Queue, q.length = 128) ∧ (∃ q : Queue, q.length ≠ 128 ∧ q.length = 127) :=
  ⟨⟨List.replicate 128 0, by simp⟩, ⟨List.replicate 127 0, by simp⟩⟩

theorem witness_QueueStepsKeepFifo :
    ∃ m s t, act m s = .next t ∧ s.d2h.length = 128 ∧ s.h2d.length = 128 :=
  ⟨.tick, { base with d2h := List.replicate 128 0, h2d := List.replicate 128 0 }, _, rfl, rfl, rfl⟩

theorem witness_SentBytesAreFifo :
    ∃ ms s t, runMoves ms s = .next t ∧ (∀ m ∈ ms, m ≠ .hostSend (.error true)) ∧ t.d2hOut = [0x3D] :=
  ⟨[.main 0, .hostSend .success], basePhase .ack, _, rfl, by decide, rfl⟩

theorem witness_TickAddsOne : ∃ s : State, s.clock = 0xFFFFFFFF := ⟨{ base with clock := 0xFFFFFFFF }, rfl⟩

theorem witness_ClockCountsTicks :
    ∃ ms s t, runMoves ms s = .next t ∧ s.clock = 0xFFFFFFFF ∧ tickCount ms = 2 ∧ t.clock = 1 :=
  ⟨[.tick, .main 0, .tick], { base with clock := 0xFFFFFFFF }, _, rfl, rfl, rfl, rfl⟩

theorem witness_ScanDriveEffect : ∃ s : State, s.ph = .scanDrive 1 ∧ s.kpColOut = 0b111 := ⟨basePhase (.scanDrive 1), rfl, rfl⟩

/-- Both ways a row can end, the row HIGH, the press rejected at its deadline and accepted one tick later. -/
theorem witness_ScanRowEffect :
    (baseRow 110 110).ph = .scanRow 1 3 ∧ (∃ r' : Row, r'.val = (3 : Row).val + 1) ∧ (6 : Row).val = 6 ∧
      (0b1111111 : BitVec 7).getLsbD 3 = true ∧ (0b1110111 : BitVec 7).getLsbD 3 = false ∧
      accept base.params.debounceCmp 110 (gridGet (baseRow 110 110).dl ⟨1, 3⟩) = false ∧
      accept base.params.debounceCmp 111 (gridGet (baseRow 111 110).dl ⟨1, 3⟩) = true := by decide

theorem witness_ScanReleaseEffect :
    (∃ s : State, s.ph = .scanRelease 2 ∧ s.kpColOut = driveLine 0b111 2 .low) ∧
      (∃ m s t, act m s = .next t ∧
        ∀ (c : Col) (r : Row), s.ph ≠ .scanDrive c ∧ s.ph ≠ .scanRow c r ∧ s.ph ≠ .scanRelease c) :=
  ⟨⟨{ base with ph := .scanRelease 2, kpColOut := 0b011 }, rfl, by decide⟩, ⟨.main 0, base, _, rfl, by decide⟩⟩

theorem witness_AcceptForms :
    (0x7FFFFFFF : Word).toNat ≤ 2 ^ 31 - 1 ∧ (0 : Word).toNat ≤ (0x7FFFFFFF : Word).toNat ∧
      (0xFFFFFF9B : Word).toNat + 100 < 2 ^ 32 := by decide

theorem witness_ClockWrapEffects :
    (5 : Word).toNat ≤ (5 : Word).toNat ∧ 2 ^ 32 - 100 ≤ (0xFFFFFF9C : Word).toNat ∧ 100 ≤ 100 ∧
      2 ^ 31 ≤ ((0x80000000 : Word) - 0).toNat := by decide

theorem witness_DeadlineMovesOnAcceptedPress :
    ∃ m s t, ∃ p : Coord, act m s = .next t ∧ gridGet t.dl p ≠ gridGet s.dl p :=
  ⟨.main 0, baseRow 10 0, _, ⟨1, 3⟩, act_after _ _, by decide⟩

/-- A key of (2, 6) held down, from one accepted press to the next: 101 ticks, then one pass of MAIN. -/
theorem witness_EmissionsAtLeast101TicksApart :
    ∃ p m s u ms v m', PressAccepted m s p ∧ act m s = .next u ∧ runMoves ms u = .next v ∧ PressAccepted m' v p ∧
      s.params.debounceCmp = .raw ∧ s.clock.toNat + 100 < 2 ^ 32 ∧ NoClockWrap ms u ∧ v.clock.toNat = s.clock.toNat + 101 :=
  ⟨⟨2, 6⟩, .main 0, { basePhase (.scanRow 2 6) with clock := 10, kpColOut := 0b011 }, _,
    List.replicate 101 .tick ++ List.replicate 28 (.main 0b1111111), _, .main 0,
    ⟨0, rfl, rfl, by decide, by decide⟩, act_after _ _, runMoves_afterAll _ _,
    ⟨0, rfl, by decide +kernel, by decide, by decide +kernel⟩, rfl, by decide, by unfold NoClockWrap; decide +kernel, by decide +kernel⟩

theorem witness_DecodeStepEffect :
    (baseDecode []).ph = .decode ∧ (baseDecode []).h2d = [] ∧
      ({ baseDecode [0x35] with arm := ⟨some 1, 3⟩ } : State).arm.col ≠ none ∧
      (baseDecode [0x35]).h2d = [0x35] ∧ (baseDecode [0x35]).arm.col = none ∧
      classify base.keyMap 0x35 = .select ⟨1, 3⟩ ∧ classify base.keyMap 0x73 = .service ∧
      classify base.keyMap 0x6C = .ignore := by decide

theorem witness_AckEffect : ∃ s : State, s.ph = .ack ∧ s.d2h.length = 128 :=
  ⟨{ basePhase .ack with d2h := List.replicate 128 0 }, rfl, rfl⟩

theorem witness_SvcWaitEffect :
    (∃ s : State, s.ph = .svcWait ∧ (s.clock - s.svcT0).toNat + s.params.svcTol = 100) ∧
      (∃ s : State, s.ph = .svcWait ∧ (s.clock - s.svcT0).toNat + s.params.svcTol = 99) :=
  ⟨⟨baseWait 500 599 1, rfl, by decide⟩, ⟨baseWait 500 598 1, rfl, by decide⟩⟩

theorem witness_ServiceWaitFreezesMain :
    ∃ ms s t, s.ph = .svcWait ∧ s.svcT0 = s.clock ∧ s.arm.col = none ∧ runMoves ms s = .next t ∧
      tickCount ms = 98 ∧ tickCount ms < 100 - s.params.svcTol :=
  ⟨.main 0 :: List.replicate 98 .tick, baseWait 500 500 1, _, rfl, rfl, rfl, runMoves_afterAll _ _, by decide, by decide⟩

/-- A run of TICK and MAIN in turn. -/
def turns (n : Nat) : Move := if n % 2 = 0 then .tick else .main 0

/-- Its states, from a service wait that has just begun. -/
def turnStates : Nat → State
  | 0 => baseWait 500 500 1
  | n + 1 => after (turns n) (turnStates n)

theorem after_main_enabled_again (k : BitVec 7) (s : State) (h : mainEnabled s = false) : after (.main k) s = s := by
  simp [after, act, enabled, h]

/-- Once MAIN's wait is over it stays over until MAIN moves: a TICK leaves MAIN enabled while it is not waiting. -/
theorem mainEnabled_of_ph {s : State} (h : s.ph ≠ .svcWait) : mainEnabled s = true := by
  unfold mainEnabled
  split
  · contradiction
  all_goals rfl

theorem after_tick (s : State) : after .tick s = { s with clock := s.clock + 1 } := rfl

/-- The states of the run: at most 99 ticks of waiting, then out of the wait for good. -/
theorem turnStates_shape (n : Nat) :
    ((turnStates n).ph = .svcWait ∧ (turnStates n).svcT0 = 500 ∧ (turnStates n).params.svcTol = 1 ∧
        (turnStates n).clock = 500 + BitVec.ofNat 32 ((n + 1) / 2) ∧ n ≤ 197 ∧ (turnStates n).h2d = []) ∨
      ((turnStates n).ph ≠ .svcWait ∧ (turnStates n).h2d = []) := by
  induction n with
  | zero => exact .inl ⟨rfl, rfl, rfl, rfl, by decide, rfl⟩
  | succ n ih =>
    have hact := act_after (turns n) (turnStates n)
    rw [turnStates]
    generalize hu : after (turns n) (turnStates n) = u at hact ⊢
    rcases Nat.mod_two_eq_zero_or_one n with hn | hn
    · have ht : turns n = .tick := by simp [turns, hn]
      rw [ht, after_tick] at hu
      subst hu
      rcases ih with ⟨hp, h0, hs, hc, hb, hq⟩ | ⟨hp, hq⟩
      · refine .inl ⟨hp, h0, hs, ?_, by omega, hq⟩
        show (turnStates n).clock + 1 = _
        rw [hc, BitVec.add_assoc, show (n + 1 + 1) / 2 = (n + 1) / 2 + 1 by omega, BitVec.ofNat_add]
        rfl
      · exact .inr ⟨hp, hq⟩
    · have ht : turns n = .main 0 := by simp [turns, hn]
      rw [ht] at hact hu
      rcases ih with ⟨hp, h0, hs, hc, hb, hq⟩ | ⟨hp, hq⟩
      · cases he : mainEnabled (turnStates n) with
        | true =>
          have : u = svcRelease (turnStates n) := by
            rw [← hu, after]; simp [act, enabled, he, perform, mainStep, hp]
          subst this
          exact .inr ⟨by simp [svcRelease], by simpa [svcRelease] using hq⟩
        | false =>
          rw [after_main_enabled_again _ _ he] at hu
          subst hu
          have hlt : ¬ svcDone (turnStates n) = true := by simp [mainEnabled, hp] at he; simp [he]
          rw [svcDone_iff, hs, h0, hc] at hlt
          have : (500 + BitVec.ofNat 32 ((n + 1) / 2) - 500 : BitVec 32).toNat = (n + 1) / 2 := by
            rw [BitVec.add_comm, BitVec.add_sub_cancel, BitVec.toNat_ofNat]; omega
          rw [this] at hlt
          exact .inl ⟨hp, h0, hs, by rw [hc]; congr 2; omega, by omega, hq⟩
      · refine .inr ?_
        cases act_cases hact with
        | decodeService hx hi hq' hb => rw [hq] at hq'; cases hq'
        | decodeSelect hx hi hq' hb => rw [hq] at hq'; cases hq'
        | decodeIgnore hx hi hq' hb => rw [hq] at hq'; cases hq'
        | _ => simp_all [xfer, scanDrive, scanRelease, acknowledge, afterRow, afterRelease] <;> (split <;> simp)

theorem witness_ServiceEventuallyReleased :
    ∃ σ μ, IsRun σ μ ∧ FairMain σ μ ∧ FairTick μ ∧ (σ 0).ph = .svcWait := by
  refine ⟨turnStates, turns, fun n => act_after _ _, fun n _ => ?_, fun n => ⟨2 * n, by omega, by simp [turns]⟩, rfl⟩
  refine ⟨2 * n + 199, by omega, ?_, ?_⟩
  · rcases turnStates_shape (2 * n + 199) with ⟨-, -, -, -, hb, -⟩ | ⟨hp, -⟩
    · omega
    · exact mainEnabled_of_ph hp
  · simp [turns, agentOf, show (2 * n + 199) % 2 = 1 by omega]

theorem witness_MainWaitsOnlyInSvcWait :
    mainEnabled (baseWait 500 599 1) = true ∧ mainEnabled (baseWait 500 598 1) = false := by decide

theorem witness_ScanIterationOrder :
    ∃ (ks : List (BitVec 7)) (s : State), ks.length = 28 ∧ s.ph = .xfer ∧ s.kpColOut = 0b111 :=
  ⟨List.replicate 28 0, base, by decide, rfl, rfl⟩

theorem witness_HostMovesEffect :
    base.ph = .xfer ∧ base.h2d.length ≠ 128 ∧ (basePhase .decode).ph ≠ .xfer ∧ base.d2h = [] ∧
      ({ base with d2h := [0x3D], h2d := List.replicate 128 0 } : State).d2h = [0x3D] ∧
      ({ base with d2h := [0x3D], h2d := List.replicate 128 0 } : State).h2d.length = 128 := by decide +kernel

theorem witness_BusMoveAndDetector : (0 : Col) ≠ 2 ∧ cnWatches .cols01 1 = true ∧ senseLine base.vmcColSense (1 : Col) ≠ .low := by
  decide

theorem witness_PulseWaveformShapes : (6 : Row) ≠ (⟨2, 0⟩ : Pulse).row := by decide

theorem witness_PcnEffect :
    base.cnPending = false ∧ ({ base with cnPending := true } : State).arm.col = none ∧
      (baseArmed 1 3 0b101).cnPending = true ∧ (baseArmed 1 3 0b101).arm.col = some 1 ∧
      senseLine (baseArmed 1 3 0b110).vmcColSense (1 : Col) = .high ∧
      senseLine (baseArmed 1 3 0b101).vmcColSense (1 : Col) = .low := by decide

theorem witness_PulseIffArmedColumnLow : ∃ m s t, act m s = .next t ∧ t.busOut ≠ s.busOut :=
  ⟨.pcn, baseArmed 2 6 0b011, _, act_after _ _, by decide⟩

theorem witness_PulsesCountSelects : ∃ m s t, act m s = .next t ∧ selectCount s t = 1 :=
  ⟨.main 0, baseDecode [0x35], _, act_after _ _, by decide⟩

theorem witness_ArmedWaitsForPulse : ∃ m s t, ∃ c : Col, act m s = .next t ∧ s.arm.col = some c ∧ t.arm.col = none :=
  ⟨.pcn, baseArmed 0 0 0b110, _, 0, act_after _ _, rfl, by decide⟩

theorem witness_ArmedForeverWhileColumnHigh :
    ∃ ms s t, ∃ c : Col, runMoves ms s = .next t ∧ s.arm.col = some c ∧ senseLine s.vmcColSense c = .high ∧
      (∀ m ∈ ms, m ≠ .bus c .low) :=
  ⟨[.bus 0 .low, .pcn, .hostRecv 0x73, .bus 1 .high], baseArmed 1 3 0b111, _, 1, runMoves_afterAll _ _, rfl, rfl, by decide⟩

theorem witness_ArmWrittenBySelectOrPulse :
    (∃ m s t, act m s = .next t ∧ s.arm.col = none ∧ t.arm ≠ s.arm) ∧
      (∃ m s t, act m s = .next t ∧ s.arm.col ≠ none ∧ t.arm ≠ s.arm) :=
  ⟨⟨.main 0, baseDecode [0x35], _, act_after _ _, rfl, by decide⟩,
    ⟨.pcn, baseArmed 1 3 0b101, _, act_after _ _, by decide, by decide⟩⟩

theorem witness_WritersByAgent :
    (∃ m s t, act m s = .next t ∧ t.vmcColSense ≠ s.vmcColSense ∧ t.cnPending ≠ s.cnPending) ∧
      (∃ m s t, act m s = .next t ∧ t.clock ≠ s.clock) ∧ (∃ m s t, act m s = .next t ∧ t.dl ≠ s.dl ∧ t.d2h ≠ s.d2h) ∧
      (∃ m s t, act m s = .next t ∧ t.busOut ≠ s.busOut ∧ t.arm ≠ s.arm) ∧
      (∃ m s t, act m s = .next t ∧ t.d2hOut ≠ s.d2hOut) ∧ (∃ m s t, act m s = .next t ∧ t.h2d ≠ s.h2d) :=
  ⟨⟨.bus 1 .low, base, _, act_after _ _, by decide, by decide⟩, ⟨.tick, base, _, act_after _ _, by decide⟩,
    ⟨.main 0, baseRow 10 0, _, act_after _ _, by decide, by decide⟩,
    ⟨.pcn, baseArmed 1 3 0b101, _, act_after _ _, by decide, by decide⟩,
    ⟨.hostSend .success, { base with d2h := [0x3D] }, _, act_after _ _, by decide⟩,
    ⟨.hostRecv 0x35, base, _, act_after _ _, by decide⟩⟩

theorem witness_InterruptsKeepMainState :
    ∃ m s t, act m s = .next t ∧ contextOf (agentOf m) = some .interruptContext ∧ t.arm ≠ s.arm :=
  ⟨.pcn, baseArmed 1 3 0b101, _, act_after _ _, rfl, by decide⟩

theorem witness_KeypadLevelsReachRowReadsOnly :
    ∃ (k k' : BitVec 7) (s : State), k ≠ k' ∧ s.ph = .scanRow 1 3 ∧
      (∀ (c : Col) (r : Row), s.ph = .scanRow c r → senseLine k r = senseLine k' r) :=
  ⟨0b0000111, 0b1110111, baseRow 10 0, by decide, rfl, by decide⟩

theorem witness_ReferenceKeypadReadsPressedKeys :
    ∃ (s : State) (pressed : List Coord), colsMatchPhase s ∧ s.ph = .scanRow 2 6 ∧ (⟨2, 6⟩ : Coord) ∈ pressed :=
  ⟨{ basePhase (.scanRow 2 6) with kpColOut := 0b011 }, [⟨2, 6⟩], rfl, rfl, by decide⟩

theorem witness_PulseMayPrecedeAck :
    ∃ (s : State) (b : Byte) (q : List Byte) (p : Coord), s.ph = .decode ∧ s.arm.col = none ∧ s.h2d = b :: q ∧ classify s.keyMap b = .select p ∧
      s.cnPending = true ∧ senseLine s.vmcColSense p.col = .low ∧ s.d2h.length ≠ 128 :=
  ⟨{ baseDecode [0x35] with cnPending := true, vmcColSense := 0b101 }, 0x35, [], ⟨1, 3⟩, rfl, rfl, rfl, by decide, rfl,
    by decide, by decide⟩

theorem witness_ArmFieldsLegal :
    ({ col := none, row := 6 } : Arm).col = none ∧ ({ col := some 2, row := 0 } : Arm).col = some 2 := by decide

end Sys2Proof.Tests
end

section
/-! PROOFS. The byte queues (20_memory.md). -/

namespace Sys2Proof.Machine

theorem enq_of_full {q : Queue} (h : qFull q = true) (b : Byte) : enq q b = (.fail, q) := by simp [enq, h]

theorem enq_of_room {q : Queue} (h : qFull q = false) (b : Byte) : enq q b = (.ok, q ++ [b]) := by simp [enq, h]

theorem qFull_eq_false_iff (q : Queue) : qFull q = false ↔ q.length ≠ 128 := by
  rw [← Bool.not_eq_true, Ne, qFull_iff]

/-- Settles O20: the two outcomes are the two values of Full, which is `length = 128` (R34). -/
theorem enqRejectsWhenFull : Obligations.EnqRejectsWhenFull := by
  intro q b
  constructor
  · intro hlen
    have hfull : qFull q = true := (qFull_iff q).2 hlen
    exact ⟨enq_of_full hfull b, enqDrop_of_full hfull b⟩
  · intro hlen
    have hroom : qFull q = false := (qFull_eq_false_iff q).2 hlen
    exact ⟨enq_of_room hroom b, enqDrop_of_room hroom b⟩

end Sys2Proof.Machine
end

section
/-! PROOFS. The key map's inverse, the class of a byte and the command it decodes to (30_encoding.md R56, R58, R60). -/

namespace Sys2Proof.Machine

/-! The inverse lookup (R56). -/

/-- NOTFOUND is the answer exactly for a byte that is at no coordinate. -/
theorem keyMapInv_eq_none_iff (km : KeyMap) (b : Byte) : keyMapInv km b = none ↔ ∀ p, keyAt km p ≠ b := by
  simp [keyMapInv, List.find?_eq_none, mem_allCoords]

/-- The lookup finds the coordinate of a byte: it finds some coordinate of it, and the key map is injective. -/
theorem keyMapInv_eq_some_iff (km : KeyMap) (b : Byte) (p : Coord) : keyMapInv km b = some p ↔ keyAt km p = b := by
  constructor
  · exact keyAt_of_keyMapInv
  · intro hp
    cases hfound : keyMapInv km b with
    | none => exact absurd hp ((keyMapInv_eq_none_iff km b).1 hfound p)
    | some q =>
      have hq : keyAt km q = keyAt km p := (keyAt_of_keyMapInv hfound).trans hp.symm
      rw [keyAt_injective km hq]

theorem keyMapInv_svcByte (km : KeyMap) : keyMapInv km svcByte = none :=
  (keyMapInv_eq_none_iff km svcByte).2 (keyAt_ne_svcByte km)

/-! The classes (R58). -/

theorem classify_svcByte (km : KeyMap) : classify km svcByte = .service := if_pos rfl

/-- A byte that is found at a coordinate is no `'s'`, so the first test of classify does not take it. -/
theorem classify_of_found {km : KeyMap} {b : Byte} {p : Coord} (h : keyMapInv km b = some p) :
    classify km b = .select p := by
  have hs : b ≠ svcByte := by
    rintro rfl
    rw [keyMapInv_svcByte] at h
    cases h
  simp [classify, hs, h]

theorem classify_of_notFound {km : KeyMap} {b : Byte} (hs : b ≠ svcByte) (h : keyMapInv km b = none) :
    classify km b = .ignore := by
  simp [classify, hs, h]

/-- The three ways a byte is classified, with the facts that decide each. -/
theorem classify_cases (km : KeyMap) (b : Byte) :
    (b = svcByte ∧ keyMapInv km b = none ∧ classify km b = .service)
    ∨ (∃ p, b ≠ svcByte ∧ keyMapInv km b = some p ∧ classify km b = .select p)
    ∨ (b ≠ svcByte ∧ keyMapInv km b = none ∧ classify km b = .ignore) := by
  by_cases hs : b = svcByte
  · subst hs
    exact .inl ⟨rfl, keyMapInv_svcByte km, classify_svcByte km⟩
  · cases h : keyMapInv km b with
    | some p => exact .inr (.inl ⟨p, hs, rfl, classify_of_found h⟩)
    | none => exact .inr (.inr ⟨hs, rfl, classify_of_notFound hs h⟩)

/-- RESERVED is a letter the lookup does not find, so it is of class IGNORE (R59). -/
theorem classify_reservedByte {km : KeyMap} {b : Byte} (h : reservedByte km = some b) : classify km b = .ignore := by
  have hletter : b ∈ letterBytes := List.mem_of_find?_eq_some h
  have hs : b ≠ svcByte := by
    rintro rfl
    revert hletter
    decide
  have hnone : keyMapInv km b = none := by simpa using List.find?_some (a := b) h
  exact classify_of_notFound hs hnone

/-! What a decoded command does, given the class of its byte. -/

theorem exec_decodeByte_of_select {b : Byte} {s : State} {p : Coord} (h : classify s.keyMap b = .select p) :
    exec (decodeByte b) s = .next (select p s) := by
  rcases exec_decodeByte_cases b s with ⟨q, hc, he⟩ | ⟨hc, -⟩ | ⟨hc, -⟩ <;> cases hc.symm.trans h
  exact he

theorem exec_decodeByte_of_ignore {b : Byte} {s : State} (h : classify s.keyMap b = .ignore) :
    exec (decodeByte b) s = .next (ignoreByte s) := by
  rcases exec_decodeByte_cases b s with ⟨q, hc, -⟩ | ⟨hc, -⟩ | ⟨-, he⟩
  · cases hc.symm.trans h
  · cases hc.symm.trans h
  · exact he

/-- The decoder is never stuck: each class leaves MAIN in a phase of its own. -/
theorem exec_decodeByte_phase (b : Byte) (s : State) :
    ∃ t, exec (decodeByte b) s = .next t ∧ (t.ph = .xfer ∨ t.ph = .ack ∨ t.ph = .svcWait) := by
  rcases exec_decodeByte_cases b s with ⟨p, -, he⟩ | ⟨-, he⟩ | ⟨-, he⟩
  · exact ⟨select p s, he, .inr (.inl rfl)⟩
  · exact ⟨service s, he, .inr (.inr rfl)⟩
  · exact ⟨ignoreByte s, he, .inl rfl⟩

/-- Settles O9: each of the three cases of a byte decides all four parts. -/
theorem classifyTestsNeverBothMatch : Obligations.ClassifyTestsNeverBothMatch := by
  intro km b
  have hsvc : svcByte = 0x73 := rfl
  rw [← hsvc]
  rcases classify_cases km b with ⟨rfl, hi, hc⟩ | ⟨p, hb, hi, hc⟩ | ⟨hb, hi, hc⟩
  · simp [hi, hc]
  · simp [hb, hi, hc, keyMapInv_svcByte]
  · simp [hb, hi, hc, keyMapInv_svcByte]

/-- Settles O11: the lookup's two equivalences, injectivity, and the SELECT arm of the decoded command. -/
theorem keyMapInverseFindsExactly : Obligations.KeyMapInverseFindsExactly := by
  intro km b
  refine ⟨keyMapInv_eq_some_iff km b, keyMapInv_eq_none_iff km b, ?unique, ?arms⟩
  case unique =>
    intro p q hp hq
    exact keyAt_injective km (hp.trans hq.symm)
  case arms =>
    rintro s p rfl hfound
    exact exec_decodeByte_of_select (classify_of_found hfound)

/-- Settles O14: every class answers a next state, and an IGNORE byte only sets the phase. -/
theorem noByteStops : Obligations.NoByteStops :=
  fun b s => ⟨exec_decodeByte_phase b s, exec_decodeByte_of_ignore, classify_reservedByte⟩

end Sys2Proof.Machine
end

section
/-! PROOFS. The step of the machine (40_sequencer.md R72, 60_exceptions.md section 1). -/

namespace Sys2Proof.Machine

/-- Settles O4: a step is one move, scheduled or free, and every move leads to a next state. -/
theorem everyStepAnswersNext : Obligations.EveryStepAnswersNext := by
  intro s
  rw [step_eq_act]
  exact act_next (nextMove s).1 (nextMove s).2

end Sys2Proof.Machine
end

section
/-! PROOFS. The matrix scanner's column latch (41_matrix_scanner.md R76, R78). -/

namespace Sys2Proof.Machine

/-! The bits of a latch after a drive, the line given as an index of the latch. -/

theorem getLsbD_driveLine_same {n : Nat} (v : BitVec n) (i : Fin n) (l : Level) :
    (driveLine v i l).getLsbD i = (l == .high) := by
  rw [getLsbD_driveLine, if_pos ⟨rfl, i.isLt⟩]

theorem getLsbD_driveLine_other {n : Nat} (v : BitVec n) {i j : Fin n} (h : j ≠ i) (l : Level) :
    (driveLine v i l).getLsbD j = v.getLsbD j := by
  have hval : i.val ≠ j.val := fun e => h (Fin.ext e.symm)
  rw [getLsbD_driveLine, if_neg (fun hd => hval hd.1)]

/-- From the rest value of the column latch, the driven column alone is LOW. -/
theorem getLsbD_driveLine_low_rest3 (c j : Col) : (driveLine 0b111 c .low : BitVec 3).getLsbD j = false ↔ j = c := by
  revert c j; decide

/-- Releasing the one driven column brings the column latch back to its rest value. -/
theorem driveLine_high_low_rest3 (c : Col) : driveLine (driveLine 0b111 c .low : BitVec 3) c .high = 0b111 := by
  rw [driveLine_driveLine]
  exact driveLine_high_rest3 c

theorem getLsbD_rest3 (j : Col) : (0b111 : BitVec 3).getLsbD j = true := by
  revert j; decide

/-! The two MAIN steps that drive a column. -/

theorem act_main_scanDrive {s : State} {c : Col} (h : s.ph = .scanDrive c) (k : BitVec 7) :
    act (.main k) s = .next (scanDrive c s) := by
  simp [act, enabled, mainEnabled, perform, mainStep, h]

theorem act_main_scanRelease {s : State} {c : Col} (h : s.ph = .scanRelease c) (k : BitVec 7) :
    act (.main k) s = .next (scanRelease c s) := by
  simp [act, enabled, mainEnabled, perform, mainStep, h]

theorem scanDrive_eq (c : Col) (s : State) :
    scanDrive c s =
      { s with kpColOut := driveLine s.kpColOut c .low, kpOut := s.kpOut ++ [.colLow c], ph := .scanRow c 0 } := rfl

theorem scanRelease_eq (c : Col) (s : State) :
    scanRelease c s =
      { s with kpColOut := driveLine s.kpColOut c .high, kpOut := s.kpOut ++ [.colHigh c], ph := afterRelease c } := rfl

theorem afterRelease_eq (c : Col) :
    afterRelease c = if c = 0 then .scanDrive 1 else if c = 1 then .scanDrive 2 else .decode := by
  revert c; decide

/-- A move writes the column latch in the phases SCAN_DRIVE and SCAN_RELEASE only, and there as that step drives it. -/
theorem act_kpColOut {m : Move} {s t : State} (h : act m s = .next t) :
    t.kpColOut = s.kpColOut
    ∨ (∃ c, s.ph = .scanDrive c ∧ t.kpColOut = driveLine s.kpColOut c .low)
    ∨ (∃ c, s.ph = .scanRelease c ∧ t.kpColOut = driveLine s.kpColOut c .high) := by
  cases act_cases h with
  | scanDrive hx => exact .inr (.inl ⟨_, hx, rfl⟩)
  | scanRelease hx => exact .inr (.inr ⟨_, hx, rfl⟩)
  | _ => exact .inl rfl

/-- Settles O26: the step is `scanDrive`, and a drive writes the driven bit alone. -/
theorem scanDriveEffect : Obligations.ScanDriveEffect := by
  intro k s c hph
  refine ⟨⟨scanDrive c s, act_main_scanDrive hph k, ?low, ?others, ?onlyLow, rfl⟩, ?example101⟩
  case low => exact getLsbD_driveLine_same s.kpColOut c .low
  case others => exact fun j hj => getLsbD_driveLine_other s.kpColOut hj .low
  case onlyLow =>
    intro hrest j
    rw [scanDrive_eq, hrest]
    exact getLsbD_driveLine_low_rest3 c j
  case example101 =>
    rintro rfl hrest
    have hdrive : driveLine (0b111 : BitVec 3) (1 : Col) .low = 0b101 := by decide
    rw [act_main_scanDrive hph, scanDrive_eq, hrest, hdrive]

/-- Settles O28: the step is `scanRelease`, and no move outside the scan writes the column latch. -/
theorem scanReleaseEffect : Obligations.ScanReleaseEffect := by
  constructor
  · intro k s c hph
    refine ⟨scanRelease c s, act_main_scanRelease hph k, ?high, ?others, ?state, ?rest⟩
    case high => exact getLsbD_driveLine_same s.kpColOut c .high
    case others => exact fun j hj => getLsbD_driveLine_other s.kpColOut hj .high
    case state => rw [← afterRelease_eq, scanRelease_eq]
    case rest =>
      intro j hlow
      rw [scanRelease_eq, hlow, driveLine_high_low_rest3]
      exact getLsbD_rest3 j
  · intro m s t hact hphase
    rcases act_kpColOut hact with hkept | ⟨c, hdrive, -⟩ | ⟨c, hrelease, -⟩
    · exact hkept
    · obtain ⟨hne, -, -⟩ := hphase c 0
      exact absurd hdrive hne
    · obtain ⟨-, -, hne⟩ := hphase c 0
      exact absurd hrelease hne

end Sys2Proof.Machine
end

section
/-! PROOFS. The command decoder: DECODE's one step, and what the armed generator shuts out (42_command_decoder.md
R83, R88, R89). -/

namespace Sys2Proof.Machine

/-! DECODE's step, by what it finds. -/

theorem act_main_decode {s : State} (h : s.ph = .decode) (k : BitVec 7) : act (.main k) s = decodeStep s := by
  simp [act, enabled, mainEnabled, perform, mainStep, h]

theorem idle_eq_true_iff (s : State) : idle s = true ↔ s.arm.col = none := Option.isNone_iff_eq_none

theorem decodeStep_of_nothing {s : State} (h : s.h2d = [] ∨ s.arm.col ≠ none) :
    decodeStep s = .next (setPhase .xfer s) := by
  have htest : (qEmpty s.h2d || !idle s) = true := by
    rwa [Bool.or_eq_true, qEmpty_iff, Bool.not_eq_true', ← Bool.not_eq_true, idle_eq_true_iff]
  exact if_pos htest

theorem decodeStep_of_cons {s : State} {b : Byte} {q : Queue} (hq : s.h2d = b :: q) (hidle : s.arm.col = none) :
    decodeStep s = exec (decodeByte b) { s with h2d := q } := by
  simp [decodeStep, hq, deq, (idle_eq_true_iff s).2 hidle]

/-- The third arm of `exec_decodeByte_cases`, beside those of SELECT and IGNORE. -/
theorem exec_decodeByte_of_service {b : Byte} {s : State} (h : classify s.keyMap b = .service) :
    exec (decodeByte b) s = .next (service s) := by
  rcases exec_decodeByte_cases b s with ⟨p, hc, -⟩ | ⟨-, he⟩ | ⟨hc, -⟩
  · cases hc.symm.trans h
  · exact he
  · cases hc.symm.trans h

/-- Settles O33: with nothing to take the step only sets the phase, and a byte taken runs the arm of its class on the
state without that byte. -/
theorem decodeStepEffect : Obligations.DecodeStepEffect := by
  intro k s hph
  rw [act_main_decode hph]
  refine ⟨decodeStep_of_nothing, ?taken⟩
  case taken =>
    intro b q hq hidle
    rw [decodeStep_of_cons hq hidle]
    exact ⟨fun _ => exec_decodeByte_of_select (s := { s with h2d := q }),
      exec_decodeByte_of_service (s := { s with h2d := q }), exec_decodeByte_of_ignore (s := { s with h2d := q })⟩

/-! What a move can do to ARM and to H2D. -/

theorem pcnGuard_of_idle {s : State} (h : s.arm.col = none) : pcnGuard s = none := by simp [pcnGuard, h]

theorem pcnGuard_of_armed {s : State} {c : Col} (h : s.arm.col = some c) :
    pcnGuard s = if senseLine s.vmcColSense c = .low then some ⟨c, s.arm.row⟩ else none := by
  cases hsense : senseLine s.vmcColSense c <;> simp [pcnGuard, h, hsense]

/-- The pulse the PCN guard lets through is the armed coordinate, its column LOW. -/
theorem pcnGuard_eq_some_iff (s : State) (p : Pulse) :
    pcnGuard s = some p ↔ s.arm.col = some p.col ∧ s.arm.row = p.row ∧ senseLine s.vmcColSense p.col = .low := by
  obtain ⟨c, r⟩ := p
  cases hcol : s.arm.col with
  | none => simp [pcnGuard_of_idle hcol]
  | some c' =>
    rw [pcnGuard_of_armed hcol]
    by_cases hc : c' = c
    · subst hc
      simp [and_comm]
    · simp [hc]

/-- ARM has two writers: a PCN step that fires, and DECODE's SELECT, which finds the generator idle. -/
theorem act_arm {m : Move} {s t : State} (h : act m s = .next t) :
    t.arm = s.arm
    ∨ (∃ p, m = .pcn ∧ pcnGuard s = some p ∧ t.arm = { s.arm with col := none } ∧ t.busOut = s.busOut ++ [p])
    ∨ (∃ k b p, m = .main k ∧ s.ph = .decode ∧ s.arm.col = none ∧ s.h2d.head? = some b ∧
        classify s.keyMap b = .select p ∧ t.arm = { col := some p.col, row := p.row } ∧ t.ph = .ack) := by
  cases act_cases h with
  | pcnFired _ hg => exact .inr (.inl ⟨_, rfl, hg, rfl, rfl⟩)
  | decodeSelect hx hi hq hb => exact .inr (.inr ⟨_, _, _, rfl, hx, hi, by simp [hq], hb, rfl, rfl⟩)
  | _ => exact .inl rfl

/-- H2D gains a byte from HOST, and loses its head to a DECODE step that finds the generator idle. -/
theorem act_h2d {m : Move} {s t : State} (h : act m s = .next t) :
    t.h2d = s.h2d
    ∨ (∃ b, m = .hostRecv b ∧ qFull s.h2d = false ∧ t.h2d = s.h2d ++ [b])
    ∨ (∃ k b, m = .main k ∧ s.ph = .decode ∧ s.arm.col = none ∧ s.h2d = b :: t.h2d) := by
  cases act_cases h with
  | recv _ hf => exact .inr (.inl ⟨_, rfl, hf, rfl⟩)
  | decodeSelect hx hi hq _ | decodeService hx hi hq _ | decodeIgnore hx hi hq _ =>
    exact .inr (.inr ⟨_, _, rfl, hx, hi, hq⟩)
  | _ => exact .inl rfl

/-- Settles O47: of the writers of H2D and of ARM, DECODE finds the generator idle, which leaves HOST's byte and the
pulse. -/
theorem armedWaitsForPulse : Obligations.ArmedWaitsForPulse := by
  intro m s t c hact harmed
  have hnotIdle : s.arm.col ≠ none := by simp [harmed]
  constructor
  · rcases act_h2d hact with hkept | ⟨b, -, -, hgain⟩ | ⟨_, _, -, -, hidle, -⟩
    · exact .inl hkept
    · exact .inr ⟨b, hgain⟩
    · exact absurd hidle hnotIdle
  · rcases act_arm hact with hkept | ⟨p, hm, hguard, hdisarm, hfired⟩ | ⟨_, _, _, -, -, hidle, -⟩
    · exact .inl hkept
    · obtain ⟨hcol, hrow, -⟩ := (pcnGuard_eq_some_iff s p).1 hguard
      have hc : c = p.col := Option.some.inj (harmed.symm.trans hcol)
      refine .inr ⟨hm, hdisarm, ?_⟩
      rw [hfired, hc, hrow]
    · exact absurd hidle hnotIdle

/-! The bytes of class IGNORE. -/

theorem classify_of_unlisted (km : KeyMap) {b : Byte} (hs : b ≠ svcByte) (h : b ∉ digitBytes ++ letterBytes) :
    classify km b = .ignore :=
  classify_of_notFound hs (keyMapInv_unlisted km h)

/-- Settles O19: R88's corner cases are no `'s'`, digit or listed letter, so no key map has them. -/
theorem ignoreCommandEffect : Obligations.IgnoreCommandEffect := by
  refine ⟨fun _ _ => rfl, fun _ _ => exec_decodeByte_of_ignore, ?corner, fun _ _ => classify_reservedByte⟩
  case corner =>
    intro km b hb
    have hunlisted : b ≠ svcByte ∧ b ∉ digitBytes ++ letterBytes := by
      revert b
      decide
    obtain ⟨hs, hlist⟩ := hunlisted
    exact classify_of_unlisted km hs hlist

end Sys2Proof.Machine
end

section
/-! PROOFS. The waveform of a pulse: what its acts do to the row latch and to the line's history (43_pulse_generator.md
R95, R96). -/

namespace Sys2Proof.Machine

/-! One act of a pulse. -/

@[simp] theorem pulseAct_delay (row : Row) (v : BitVec 7) (w : List Segment) (d : Nat) :
    pulseAct row ⟨v, w⟩ (.delay d) = ⟨v, extendWave w (senseLine v row) d⟩ := rfl

@[simp] theorem pulseAct_drive (row : Row) (v : BitVec 7) (w : List Segment) (l : Level) :
    pulseAct row ⟨v, w⟩ (.drive l) = ⟨driveLine v row l, w⟩ := rfl

@[simp] theorem senseLine_rest7 (r : Row) : senseLine 127#7 r = .high := by
  revert r
  decide

@[simp] theorem senseLine_driveLine_row (v : BitVec 7) (r : Row) (l : Level) : senseLine (driveLine v r l) r = l :=
  senseLine_driveLine_same v r.isLt l

/-- No act writes another row line than its own. -/
theorem pulseAct_getLsbD_other {row j : Row} (hj : j ≠ row) (run : PulseRun) (a : PulseAct) :
    (pulseAct row run a).rowOut.getLsbD j = run.rowOut.getLsbD j := by
  cases a with
  | delay d => rfl
  | drive l => exact getLsbD_driveLine_other run.rowOut hj l

theorem foldl_pulseAct_getLsbD_other {row j : Row} (hj : j ≠ row) (acts : List PulseAct) (run : PulseRun) :
    (acts.foldl (pulseAct row) run).rowOut.getLsbD j = run.rowOut.getLsbD j := by
  induction acts generalizing run with
  | nil => rfl
  | cons a acts ih => exact (ih (pulseAct row run a)).trans (pulseAct_getLsbD_other hj run a)

/-! The waveform of each column: its acts in order, each delay at the level of the drive before it. -/

theorem pulseWaveform_col0 (d : Delays) (r : Row) : pulseWaveform d ⟨0, r⟩ =
    [⟨.high, d.tPre1 + d.tPre2⟩, ⟨.low, d.tLow1⟩, ⟨.high, d.tHigh + d.tExtra⟩, ⟨.low, d.tLow2⟩] := by
  simp [pulseWaveform, runPulse, pulseActs, extendWave]

theorem pulseWaveform_col1 (d : Delays) (r : Row) : pulseWaveform d ⟨1, r⟩ =
    [⟨.high, d.tPre1 + d.tPre2⟩, ⟨.low, d.tLow1⟩, ⟨.high, d.tHigh⟩, ⟨.low, d.tLow2⟩] := by
  simp [pulseWaveform, runPulse, pulseActs, extendWave]

theorem pulseWaveform_col2 (d : Delays) (r : Row) : pulseWaveform d ⟨2, r⟩ =
    [⟨.high, d.tPre1 + d.tPre2⟩, ⟨.low, d.tLow1 + d.tLow2⟩] := by
  simp [pulseWaveform, runPulse, pulseActs, extendWave]

/-- The columns differ in how the LOW time is split, not in its total (R96). -/
theorem pulseWaveform_lowTime (d : Delays) (p : Pulse) :
    (((pulseWaveform d p).filter (fun g => g.level == .low)).map (·.length)).sum = d.tLow1 + d.tLow2 := by
  obtain ⟨c, r⟩ := p
  match c with
  | 0 => simp [pulseWaveform_col0]
  | 1 => simp [pulseWaveform_col1]
  | 2 => simp [pulseWaveform_col2]

/-- Settles O43: each column's waveform is computed from its acts, the LOW time is read off the three shapes, and the row
latch follows because every act writes the pulse's own line, the last one driving it HIGH. -/
theorem pulseWaveformShapes : Obligations.PulseWaveformShapes := by
  refine ⟨pulseWaveform_col0, pulseWaveform_col1, pulseWaveform_col2, ?otherRows, ?rest, pulseWaveform_lowTime⟩
  case otherRows =>
    intro d p v n j hj
    exact foldl_pulseAct_getLsbD_other hj ((pulseActs d p.col).take n) ⟨v, []⟩
  case rest =>
    intro d p
    rw [runPulse_rowOut]
    exact driveLine_high_rest7 p.row

end Sys2Proof.Machine
end

section
/-! PROOFS. Who writes what: for each field, the moves that change it and the value they give it (10_state.md section 6).
Every proof about one field of a next state splits on the field's lemma here; each of these splits once on `act_cases`. -/

namespace Sys2Proof.Machine

theorem afterRow_ne_svcWait (c : Col) (r : Row) : afterRow c r ≠ .svcWait := by
  unfold afterRow
  split <;> exact Phase.noConfusion

theorem afterRelease_ne_svcWait (c : Col) : afterRelease c ≠ .svcWait := by
  unfold afterRelease
  split <;> exact Phase.noConfusion

theorem act_keyMap {m : Move} {s t : State} (h : act m s = .next t) : t.keyMap = s.keyMap := by
  cases act_cases h <;> rfl

theorem act_params {m : Move} {s t : State} (h : act m s = .next t) : t.params = s.params := by
  cases act_cases h <;> rfl

/-- CLOCK has one writer, TICK. -/
theorem act_clock {m : Move} {s t : State} (h : act m s = .next t) :
    (m = .tick ∧ t.clock = s.clock + 1) ∨ (m ≠ .tick ∧ t.clock = s.clock) := by
  cases act_cases h with
  | tick => exact .inl ⟨rfl, rfl⟩
  | disabled hd =>
    refine .inr ⟨?_, rfl⟩
    rintro rfl
    cases hd
  | _ => exact .inr ⟨Move.noConfusion, rfl⟩

/-- DL has one writer, the accepted press, which moves its own entry. -/
theorem act_dl {m : Move} {s t : State} (h : act m s = .next t) :
    t.dl = s.dl ∨ ∃ p, PressAccepted m s p ∧ t.dl = gridSet s.dl p (newDeadline s.clock) := by
  cases act_cases h with
  | rowAccepted hx hl ha => exact .inr ⟨_, ⟨_, rfl, hx, hl, ha⟩, rfl⟩
  | _ => exact .inl rfl

/-- The row latch and BUS_OUT have one writer, the PCN step whose guard lets a pulse through. -/
theorem act_pulse {m : Move} {s t : State} (h : act m s = .next t) :
    (t.vmcRowOut = s.vmcRowOut ∧ t.busOut = s.busOut)
    ∨ (∃ p, m = .pcn ∧ s.cnPending = true ∧ pcnGuard s = some p ∧
        t.vmcRowOut = driveLine s.vmcRowOut p.row .high ∧ t.busOut = s.busOut ++ [p]) := by
  cases act_cases h with
  | pcnFired hp hg => exact .inr ⟨_, rfl, hp, hg, runPulse_rowOut _ _ _, rfl⟩
  | _ => exact .inl ⟨rfl, rfl⟩

/-- The sense lines have one writer, BUS. -/
theorem act_vmcColSense {m : Move} {s t : State} (h : act m s = .next t) :
    t.vmcColSense = s.vmcColSense
    ∨ (∃ c l, m = .bus c l ∧ t.vmcColSense = driveLine s.vmcColSense c l) := by
  cases act_cases h with
  | bus => exact .inr ⟨_, _, rfl, rfl⟩
  | _ => exact .inl rfl

/-- CN_PENDING is written by the detector in a BUS move, and cleared by PCN. -/
theorem act_cnPending {m : Move} {s t : State} (h : act m s = .next t) :
    t.cnPending = s.cnPending
    ∨ (∃ c l, m = .bus c l ∧ t.cnPending = cnAfter s c l)
    ∨ (m = .pcn ∧ t.cnPending = false) := by
  cases act_cases h with
  | bus => exact .inr (.inl ⟨_, _, rfl, rfl⟩)
  | pcnIgnored | pcnFired => exact .inr (.inr ⟨rfl, rfl⟩)
  | _ => exact .inl rfl

/-- Enq with the byte dropped, as the change it makes to a queue: none, or a byte at the end of a queue that has room. -/
theorem enqDrop_eq_self_or_append (q : Queue) (b : Byte) :
    enqDrop q b = q ∨ (qFull q = false ∧ enqDrop q b = q ++ [b]) := by
  cases hfull : qFull q
  · exact .inr ⟨rfl, enqDrop_of_room hfull b⟩
  · exact .inl (enqDrop_of_full hfull b)

/-- D2H and D2H_OUT: MAIN puts a key byte or `'='` at the end of D2H, HostSend takes its head, and no other move writes
either. Whoever writes D2H leaves H2D. -/
theorem act_d2h {m : Move} {s t : State} (h : act m s = .next t) :
    (t.d2h = s.d2h ∧ t.d2hOut = s.d2hOut)
    ∨ (∃ k b, m = .main k ∧ t.h2d = s.h2d ∧ (b = ackByte ∨ ∃ p, keyAt s.keyMap p = b) ∧ qFull s.d2h = false ∧
        t.d2h = s.d2h ++ [b] ∧ t.d2hOut = s.d2hOut)
    ∨ (∃ b, m = .hostSend .success ∧ t.h2d = s.h2d ∧ s.d2h = b :: t.d2h ∧ t.d2hOut = s.d2hOut ++ [b])
    ∨ (∃ b, m = .hostSend (.error true) ∧ t.h2d = s.h2d ∧ s.d2h = b :: t.d2h ∧ t.d2hOut = s.d2hOut) := by
  cases act_cases h with
  | sent _ hd => exact .inr (.inr (.inl ⟨_, rfl, rfl, hd, rfl⟩))
  | lost _ hd => exact .inr (.inr (.inr ⟨_, rfl, rfl, hd, rfl⟩))
  | @rowAccepted k _ c r hx hl ha =>
    rcases enqDrop_eq_self_or_append s.d2h (keyAt s.keyMap ⟨c, r⟩) with hfull | ⟨hroom, happend⟩
    · exact .inl ⟨hfull, rfl⟩
    · exact .inr (.inl ⟨k, _, rfl, rfl, .inr ⟨_, rfl⟩, hroom, happend, rfl⟩)
  | @ack k =>
    rcases enqDrop_eq_self_or_append s.d2h ackByte with hfull | ⟨hroom, happend⟩
    · exact .inl ⟨hfull, rfl⟩
    · exact .inr (.inl ⟨k, _, rfl, rfl, .inl rfl, hroom, happend, rfl⟩)
  | _ => exact .inl ⟨rfl, rfl⟩

/-- The service line, its trace and SVC_T0: written where DECODE's SERVICE begins the wait and where MAIN ends it, and PH
enters and leaves SVC_WAIT there only. -/
theorem act_svc {m : Move} {s t : State} (h : act m s = .next t) :
    (t.svcOut = s.svcOut ∧ t.svcOutT = s.svcOutT ∧ t.svcT0 = s.svcT0 ∧ (t.ph = .svcWait ↔ s.ph = .svcWait))
    ∨ (∃ k, m = .main k ∧ s.ph = .decode ∧ s.arm.col = none ∧ t.arm = s.arm ∧
        t.svcOut = .low ∧ t.svcOutT = s.svcOutT ++ [.svcLow] ∧ t.svcT0 = s.clock ∧ t.ph = .svcWait)
    ∨ (∃ k, m = .main k ∧ s.ph = .svcWait ∧ svcDone s = true ∧ t = svcRelease s) := by
  cases act_cases h with
  | decodeService hx hi => exact .inr (.inl ⟨_, rfl, hx, hi, rfl, rfl, rfl, rfl, rfl⟩)
  | svcRelease hx hd => exact .inr (.inr ⟨_, rfl, hx, hd, rfl⟩)
  | rowPassed hx | rowAccepted hx =>
    exact .inl ⟨rfl, rfl, rfl, by simp [hx, afterRow_ne_svcWait]⟩
  | scanRelease hx => exact .inl ⟨rfl, rfl, rfl, by simp [scanRelease, hx, afterRelease_ne_svcWait]⟩
  | xfer hx | scanDrive hx | decodeNothing hx | decodeSelect hx | decodeIgnore hx | ack hx =>
    exact .inl ⟨rfl, rfl, rfl, by simp [hx, xfer, scanDrive, select, acknowledge]⟩
  | _ => exact .inl ⟨rfl, rfl, rfl, Iff.rfl⟩

/-! The table of writers, from the lemmas above. -/

/-- `cnAfter` sets CN_PENDING or keeps it, so a BUS move that changes it sets it. -/
theorem cnAfter_eq_true_of_ne {s : State} {c : Col} {l : Level} (h : cnAfter s c l ≠ s.cnPending) :
    cnAfter s c l = true := by
  cases hp : s.cnPending
  · simpa [hp] using h
  · simp [cnAfter, hp]

/-- What no agent but MAIN writes. -/
theorem act_mainOnly {m : Move} {s t : State} (h : act m s = .next t) (hm : agentOf m ≠ .main) :
    t.dl = s.dl ∧ t.kpColOut = s.kpColOut ∧ t.svcOut = s.svcOut ∧ t.svcT0 = s.svcT0 ∧ t.ph = s.ph ∧
      t.kpOut = s.kpOut ∧ t.svcOutT = s.svcOutT := by
  cases act_cases h with
  | xfer | scanDrive | rowPassed | rowAccepted | scanRelease | decodeNothing | decodeSelect | decodeService
    | decodeIgnore | ack | svcRelease => exact absurd rfl hm
  | _ => exact ⟨rfl, rfl, rfl, rfl, rfl, rfl, rfl⟩

/-- Settles O50: each row of the table is the lemma on its field. -/
theorem writersByAgent : Obligations.WritersByAgent := by
  intro m s t h
  refine ⟨?clock, ?main, ?pcn, ?bus, ?arm, ?cn, ?queues, ?sent, act_keyMap h, act_params h⟩
  case clock =>
    intro hne
    rcases act_clock h with ⟨rfl, -⟩ | ⟨-, hkept⟩
    · rfl
    · exact absurd hkept hne
  case main =>
    intro hne
    by_contra hm
    obtain ⟨hdl, hcol, hline, ht0, hph, hkp, htrace⟩ := act_mainOnly h hm
    simp [hdl, hcol, hline, ht0, hph, hkp, htrace] at hne
  case pcn =>
    intro hne
    rcases act_pulse h with ⟨hrow, hbus⟩ | ⟨_, rfl, -⟩
    · exact absurd hne (by simp [hrow, hbus])
    · rfl
  case bus =>
    intro hne
    rcases act_vmcColSense h with hkept | ⟨_, _, rfl, -⟩
    · exact absurd hkept hne
    · rfl
  case arm =>
    intro hne
    rcases act_arm h with hkept | ⟨_, rfl, -⟩ | ⟨_, _, _, rfl, -⟩
    · exact absurd hkept hne
    · exact .inr rfl
    · exact .inl rfl
  case cn =>
    intro hne
    rcases act_cnPending h with hkept | ⟨c, l, rfl, hset⟩ | ⟨rfl, hcleared⟩
    · exact absurd hkept hne
    · exact .inl ⟨rfl, hset.trans (cnAfter_eq_true_of_ne (hset ▸ hne))⟩
    · exact .inr ⟨rfl, hcleared⟩
  case queues =>
    intro hne
    rcases act_h2d h with hh | ⟨_, rfl, -⟩ | ⟨_, _, rfl, -⟩
    · rcases act_d2h h with ⟨hd, -⟩ | ⟨_, _, rfl, -⟩ | ⟨_, rfl, -⟩ | ⟨_, rfl, -⟩
      · exact absurd hne (by simp [hh, hd])
      · exact .inr rfl
      · exact .inl rfl
      · exact .inl rfl
    · exact .inl rfl
    · exact .inr rfl
  case sent =>
    intro hne
    rcases act_d2h h with ⟨-, hkept⟩ | ⟨_, _, -, -, -, -, -, hkept⟩ | ⟨_, rfl, -⟩ | ⟨_, rfl, -⟩
    · exact absurd hkept hne
    · exact absurd hkept hne
    · rfl
    · rfl

theorem eq_tick_or_pcn_of_interruptContext {m : Move} (h : contextOf (agentOf m) = some .interruptContext) :
    m = .tick ∨ m = .pcn := by
  cases m with
  | tick => exact .inl rfl
  | pcn => exact .inr rfl
  | _ => cases h

/-- Settles O51: TICK and PCN are none of the agents that the table of writers names for these fields. -/
theorem interruptsKeepMainState : Obligations.InterruptsKeepMainState := by
  intro m s t h hctx
  obtain ⟨-, -, -, hbus, harm, -, hqueues, -, -, -⟩ := writersByAgent m s t h
  rcases eq_tick_or_pcn_of_interruptContext hctx with rfl | rfl
  all_goals
    obtain ⟨hdl, hcol, hline, ht0, hph, -, -⟩ := act_mainOnly h (by simp [agentOf])
    simp only [agentOf, reduceCtorEq, imp_false, or_self, not_not, not_or, or_true] at hbus harm hqueues
    simp [hdl, hcol, hline, ht0, hph, hbus, harm, hqueues]

end Sys2Proof.Machine
end

section
/-! PROOFS. The invariant of the block, kept by every step (10_state.md sections 4 and 5). -/

namespace Sys2Proof.Machine

/-! The column latch. -/

/-- The value of KP_COL_OUT that `colsMatchPhase` asks for in a phase. -/
def colsOf : Phase → BitVec 3
  | .scanRow c _ | .scanRelease c => driveLine 0b111 c .low
  | .xfer | .scanDrive _ | .decode | .ack | .svcWait => 0b111

theorem colsMatchPhase_iff (s : State) : colsMatchPhase s ↔ s.kpColOut = colsOf s.ph := by
  unfold colsMatchPhase colsOf
  cases s.ph <;> rfl

/-- All the rows of a column are read, and the column released, with that column LOW. -/
theorem colsOf_afterRow (c : Col) (r : Row) : colsOf (afterRow c r) = driveLine 0b111 c .low := by
  unfold afterRow
  split <;> rfl

theorem colsOf_afterRelease (c : Col) : colsOf (afterRelease c) = 0b111 := by
  unfold afterRelease
  split <;> rfl

/-- The columns follow the phase: SCAN_DRIVE and SCAN_RELEASE write the latch on the way in and out of the rows of a
column, and every other change of phase stays on one side. -/
theorem act_colsMatchPhase {m : Move} {s t : State} (h : act m s = .next t) (hs : colsMatchPhase s) :
    colsMatchPhase t := by
  rw [colsMatchPhase_iff] at hs ⊢
  cases act_cases h with
  | scanDrive hx =>
    rw [hx] at hs
    rw [scanDrive_eq, hs]
    rfl
  | rowPassed hx | rowAccepted hx =>
    rw [hx] at hs
    exact hs.trans (colsOf_afterRow _ _).symm
  | @scanRelease _ _ c hx =>
    rw [hx] at hs
    rw [scanRelease_eq, hs, colsOf_afterRelease]
    exact driveLine_high_low_rest3 c
  | xfer hx | decodeNothing hx | decodeIgnore hx | decodeSelect hx | decodeService hx | ack hx | svcRelease hx =>
    rw [hx] at hs
    exact hs
  | _ => exact hs

/-! The other parts of the invariant, one lemma each. -/

theorem act_h2dBound {m : Move} {s t : State} (h : act m s = .next t) (hs : qCount s.h2d ≤ qCap) :
    qCount t.h2d ≤ qCap := by
  rcases act_h2d h with hkept | ⟨b, -, hroom, hgain⟩ | ⟨_, b, -, -, -, hloss⟩
  · rwa [hkept]
  · rw [hgain, ← enqDrop_of_room hroom]
    exact qCount_enqDrop_le hs b
  · rw [hloss] at hs
    exact Nat.le_of_succ_le hs

theorem act_d2hBound {m : Move} {s t : State} (h : act m s = .next t) (hs : qCount s.d2h ≤ qCap) :
    qCount t.d2h ≤ qCap := by
  rcases act_d2h h with ⟨hkept, -⟩ | ⟨_, b, -, -, -, hroom, hgain, -⟩ | ⟨b, -, -, hloss, -⟩ | ⟨b, -, -, hloss, -⟩
  · rwa [hkept]
  · rw [hgain, ← enqDrop_of_room hroom]
    exact qCount_enqDrop_le hs b
  · rw [hloss] at hs
    exact Nat.le_of_succ_le hs
  · rw [hloss] at hs
    exact Nat.le_of_succ_le hs

theorem act_rowsAtRest {m : Move} {s t : State} (h : act m s = .next t) (hs : s.vmcRowOut = 0b1111111) :
    t.vmcRowOut = 0b1111111 := by
  rcases act_pulse h with ⟨hkept, -⟩ | ⟨p, -, -, -, hpulse, -⟩
  · rw [hkept, hs]
  · rw [hpulse, hs]
    exact driveLine_high_rest7 p.row

theorem act_svcLine {m : Move} {s t : State} (h : act m s = .next t) (hs : s.svcOut = .low ↔ s.ph = .svcWait) :
    t.svcOut = .low ↔ t.ph = .svcWait := by
  rcases act_svc h with ⟨hline, -, -, hph⟩ | ⟨_, -, -, -, -, hline, -, -, hph⟩ | ⟨_, -, -, -, rfl⟩
  · rw [hline, hph, hs]
  · simp [hline, hph]
  · simp [svcRelease]

theorem act_svcIdle {m : Move} {s t : State} (h : act m s = .next t) (hs : s.ph = .svcWait → idle s = true) :
    t.ph = .svcWait → idle t = true := by
  intro hwait
  rw [idle_eq_true_iff]
  rcases act_svc h with ⟨-, -, -, hph⟩ | ⟨_, -, -, hidle, harm, -⟩ | ⟨_, -, -, -, rfl⟩
  · rcases act_arm h with harm | ⟨_, -, -, harm, -⟩ | ⟨_, _, _, -, -, -, -, -, -, hack⟩
    · rw [harm]
      exact (idle_eq_true_iff s).1 (hs (hph.1 hwait))
    · rw [harm]
    · rw [hack] at hwait
      cases hwait
  · rw [harm, hidle]
  · cases hwait

theorem act_responses {m : Move} {s t : State} (h : act m s = .next t)
    (hs : ∀ b ∈ s.d2h ++ s.d2hOut, b = ackByte ∨ ∃ p, keyAt s.keyMap p = b) :
    ∀ b ∈ t.d2h ++ t.d2hOut, b = ackByte ∨ ∃ p, keyAt t.keyMap p = b := by
  intro x hx
  rw [act_keyMap h]
  rcases act_d2h h with ⟨hq, hout⟩ | ⟨_, b, -, -, hlegal, -, hq, hout⟩ | ⟨b, -, -, hq, hout⟩ | ⟨b, -, -, hq, hout⟩
  · exact hs x (by rwa [← hq, ← hout])
  · by_cases hxb : x = b
    · rwa [hxb]
    · rw [hq, hout] at hx
      exact hs x (by simpa [hxb] using hx)
  · rw [hout] at hx
    have hmoved : x ∈ s.d2h ++ s.d2hOut := by
      rw [hq]
      simp only [List.mem_append, List.mem_cons, List.mem_nil_iff, or_false] at hx ⊢
      tauto
    exact hs x hmoved
  · rw [hout] at hx
    exact hs x (by rw [hq]; exact List.mem_cons_of_mem b hx)

theorem wholePulses_succ (n : Nat) : wholePulses (n + 1) = wholePulses n ++ [.svcLow, .svcRelease] := by
  simp [wholePulses, List.replicate_succ']

theorem act_svcTrace {m : Move} {s t : State} (h : act m s = .next t)
    (hs : ∃ n, s.svcOutT = wholePulses n ++ (if s.ph = .svcWait then [SvcEvent.svcLow] else [])) :
    ∃ n, t.svcOutT = wholePulses n ++ (if t.ph = .svcWait then [SvcEvent.svcLow] else []) := by
  obtain ⟨n, hn⟩ := hs
  rcases act_svc h with ⟨-, htrace, -, hph⟩ | ⟨_, -, hdecode, -, -, -, htrace, -, hph⟩ | ⟨_, -, hwait, -, rfl⟩
  · exact ⟨n, by simp only [htrace, hph, hn]⟩
  · exact ⟨n, by simp [htrace, hph, hn, hdecode]⟩
  · exact ⟨n + 1, by simp [svcRelease, wholePulses_succ, hn, hwait]⟩

/-- Every move keeps the invariant, part by part. -/
theorem act_blockInv {m : Move} {s t : State} (h : act m s = .next t) (hs : BlockInv s) : BlockInv t where
  h2dBound := act_h2dBound h hs.h2dBound
  d2hBound := act_d2hBound h hs.d2hBound
  rowsAtRest := act_rowsAtRest h hs.rowsAtRest
  cols := act_colsMatchPhase h hs.cols
  svcLine := act_svcLine h hs.svcLine
  svcIdle := act_svcIdle h hs.svcIdle
  responses := act_responses h hs.responses
  svcTrace := act_svcTrace h hs.svcTrace

/-! The schedule. -/

theorem nextMove_of_scheduled {s : State} {m : Move} {ms : List Move} (h : s.schedule = m :: ms) :
    nextMove s = (m, { s with schedule := ms }) := by
  simp [nextMove, h]

theorem nextMove_of_unscheduled {s : State} (h : s.schedule = []) :
    nextMove s = (Config.freeMove s.freeMoves, { s with freeMoves := s.freeMoves + 1 }) := by
  simp [nextMove, h]

/-- The invariant speaks of no field that choosing the next move writes. -/
theorem nextMove_blockInv {s : State} (hs : BlockInv s) : BlockInv (nextMove s).2 := by
  cases h : s.schedule with
  | nil => rw [nextMove_of_unscheduled h]; exact { hs with }
  | cons m ms => rw [nextMove_of_scheduled h]; exact { hs with }

/-- Settles O3: choosing the move keeps the invariant, and so does the move. -/
theorem stepKeepsBlockInv : Obligations.StepKeepsBlockInv := by
  intro s t hs hstep
  rw [step_eq_act] at hstep
  exact act_blockInv hstep (nextMove_blockInv hs)

/-- Settles O2: at reset the lines rest, the queues and traces are empty, and no service wait is on. -/
theorem resetMeetsBlockInv : Obligations.ResetMeetsBlockInv where
  h2dBound := Nat.zero_le _
  d2hBound := Nat.zero_le _
  rowsAtRest := rfl
  cols := rfl
  svcLine := by simp [State.reset]
  svcIdle := by simp [State.reset]
  responses := by simp [State.reset]
  svcTrace := ⟨0, by simp [State.reset, wholePulses]⟩

/-- Settles O1: each value is the one the reset state is built with; a DL entry is read out of the table of zeros. -/
theorem resetStateValues : Obligations.ResetStateValues := by
  refine ⟨rfl, ?deadlines, rfl, rfl, rfl, rfl, rfl, rfl, rfl, rfl, rfl, rfl, rfl, rfl, rfl, rfl, rfl⟩
  case deadlines =>
    intro p
    simp [State.reset, gridGet]

/-- Settles O6: the two arms of `nextMove`. -/
theorem stepTakesNextMove : Obligations.StepTakesNextMove := by
  constructor
  · intro s m ms h
    rw [step_eq_act, nextMove_of_scheduled h]
  · intro s h
    rw [step_eq_act, nextMove_of_unscheduled h]

end Sys2Proof.Machine
end

section
/-! PROOFS. The opcode table read both ways, and what a key map lets a command byte mean (30_encoding.md). -/

namespace Sys2Proof.Machine

/-! The opcode table. -/

theorem lookupRow_fixedRow_ne {b pat : Byte} (h : b ≠ pat) (i : Instr) (rows : List OpcodeRow) :
    lookupRow (fixedRow pat i :: rows) b = lookupRow rows b := by
  have hmask : b &&& 0xFF = b := BitVec.and_allOnes
  rw [fixedRow, lookupRow, hmask, if_neg h]

theorem lookupRow_catchAll (b : Byte) : lookupRow [⟨0#8, 0#8, fun b => .ign b⟩] b = .ign b := by
  simp [lookupRow]

/-- A byte that no other row matches falls through to the catch-all row. -/
theorem decodeByte_of_unnamed {b : Byte} (h : b ∉ namedBytes) : decodeByte b = .ign b := by
  simp [namedBytes, digitBytes, letterBytes] at h
  simp [decodeByte, opcodeTable, digitRows, letterRows, lookupRow_fixedRow_ne, h, lookupRow_catchAll]

/-- The catch-all row takes no byte that has a row of its own. -/
theorem decodeByte_named_wf {b : Byte} (h : b ∈ namedBytes) :
    (decodeByte b).wf = true ∧ encode (decodeByte b) = [b] := by
  fin_cases h <;> exact ⟨rfl, rfl⟩

theorem wf_ign_iff (b : Byte) : (Instr.ign b).wf = true ↔ b ∉ namedBytes := by
  simp [Instr.wf]

theorem decodeByte_encodeByte {i : Instr} (h : i.wf = true) : decodeByte (encodeByte i) = i := by
  cases i with
  | ign b => exact decodeByte_of_unnamed ((wf_ign_iff b).1 h)
  | _ => rfl

/-- Settles O7: a well-formed command's byte finds its own row, and a byte with no row of its own finds the catch-all
row, whose operand is that byte. -/
theorem decodeOfEncodeRoundTrip : Obligations.DecodeOfEncodeRoundTrip := by
  constructor
  · intro i hwf rest
    have hbyte := decodeByte_encodeByte hwf
    simp [encode, decode, hbyte]
  · intro b
    by_cases hb : b ∈ namedBytes
    · exact decodeByte_named_wf hb
    · rw [decodeByte_of_unnamed hb]
      exact ⟨(wf_ign_iff b).2 hb, rfl⟩

/-- Settles O8: each byte is looked up in the table. -/
theorem tableBytesDecode : Obligations.TableBytesDecode := by
  unfold Obligations.TableBytesDecode
  decide

/-- Settles O5: with MAIN next, DECODE takes the head of H2D and runs what it decodes to. -/
theorem stepRunsDecodedCommand : Obligations.StepRunsDecodedCommand := by
  intro s k ms b q i hsched hph hidle hq hdecode
  obtain rfl : decodeByte b = i := by simpa [decode] using hdecode
  calc step s = act (.main k) { s with schedule := ms } := stepTakesNextMove.1 s _ ms hsched
    _ = decodeStep { s with schedule := ms } :=
      act_main_decode (s := { s with schedule := ms }) hph k
    _ = exec (decodeByte b) { s with schedule := ms, h2d := q } := decodeStep_of_cons hq hidle

/-! How many bytes a key map has. -/

theorem length_keyBytesOf (km : KeyMap) : (keyBytesOf km.rows).length = 21 := by
  rw [keyBytesOf_eq_map, List.length_map]
  rfl

theorem mem_keyBytesOf {km : KeyMap} {b : Byte} : b ∈ keyBytesOf km.rows ↔ ∃ p, keyAt km p = b := by
  simp [keyBytesOf_eq_map, mem_allCoords]

/-- The 21 different values are among 22 bytes, so one byte is left. -/
theorem card_unmapped_eq_one (km : KeyMap) :
    ((digitBytes ++ letterBytes).toFinset \ (keyBytesOf km.rows).toFinset).card = 1 := by
  have hsub : (keyBytesOf km.rows).toFinset ⊆ (digitBytes ++ letterBytes).toFinset := by
    intro b hb
    obtain ⟨p, rfl⟩ := mem_keyBytesOf.1 (List.mem_toFinset.1 hb)
    exact List.mem_toFinset.2 (keyAt_listed km p)
  have hlisted : (digitBytes ++ letterBytes).toFinset.card = 22 := by decide
  rw [Finset.card_sdiff_of_subset hsub, hlisted, List.toFinset_card_of_nodup (keyBytes_nodup km), length_keyBytesOf]

/-- One letter is at no coordinate: one listed byte is left, and the digits are all taken. -/
theorem existsUnique_unmapped_letter (km : KeyMap) : ∃! b, b ∈ letterBytes ∧ ∀ p, keyAt km p ≠ b := by
  obtain ⟨r, hr⟩ := Finset.card_eq_one.1 (card_unmapped_eq_one km)
  have hleft : ∀ b, b = r ↔ b ∈ digitBytes ++ letterBytes ∧ ∀ p, keyAt km p ≠ b := by
    intro b
    rw [← Finset.mem_singleton, ← hr, Finset.mem_sdiff, List.mem_toFinset, List.mem_toFinset, mem_keyBytesOf, not_exists]
  obtain ⟨hlisted, hunmapped⟩ := (hleft r).1 rfl
  refine ⟨r, ⟨?letter, hunmapped⟩, ?unique⟩
  case letter =>
    rcases List.mem_append.1 hlisted with hdigit | hletter
    · obtain ⟨p, hp⟩ := digit_is_key km hdigit
      exact absurd hp (hunmapped p)
    · exact hletter
  case unique =>
    rintro b ⟨hb, hfree⟩
    exact (hleft b).2 ⟨List.mem_append_right digitBytes hb, hfree⟩

/-- Settles O10: R55's items, and the letter left over. -/
theorem keyMapConstraints : Obligations.KeyMapConstraints :=
  fun km => ⟨fun _ _ => keyAt_injective km, keyAt_listed km, fun _ => digit_is_key km, existsUnique_unmapped_letter km,
    keyAt_one_three km⟩

/-! The class of a byte, from where the key map has it. -/

theorem classify_keyAt (km : KeyMap) (p : Coord) : classify km (keyAt km p) = .select p :=
  classify_of_found ((keyMapInv_eq_some_iff km _ p).2 rfl)

theorem classify_digit (km : KeyMap) {b : Byte} (hb : b ∈ digitBytes) : ∃ p, classify km b = .select p := by
  obtain ⟨p, rfl⟩ := digit_is_key km hb
  exact ⟨p, classify_keyAt km p⟩

theorem classify_unmapped_letter {km : KeyMap} {b : Byte} (hb : b ∈ letterBytes) (h : ∀ p, keyAt km p ≠ b) :
    classify km b = .ignore := by
  have hs : b ≠ svcByte := by
    rintro rfl
    revert hb
    decide
  exact classify_of_notFound hs ((keyMapInv_eq_none_iff km b).2 h)

/-- RESERVED is the letter that is at no coordinate. -/
theorem reservedByte_eq_some {km : KeyMap} {r : Byte} (hr : r ∈ letterBytes) (hfree : ∀ p, keyAt km p ≠ r)
    (hunique : ∀ b ∈ letterBytes, (∀ p, keyAt km p ≠ b) → b = r) : reservedByte km = some r := by
  have hfound : (reservedByte km).isSome := by
    rw [reservedByte, List.find?_isSome]
    exact ⟨r, hr, by simp [(keyMapInv_eq_none_iff km r).2 hfree]⟩
  obtain ⟨b, hb⟩ := Option.isSome_iff_exists.1 hfound
  have hnone : keyMapInv km b = none := by simpa using List.find?_some (a := b) hb
  rw [hb, hunique b (List.mem_of_find?_eq_some hb) ((keyMapInv_eq_none_iff km b).1 hnone)]

/-- Settles O13: a digit is at a coordinate, a letter at one unless it is the one left over, and a byte with no row of its
own is unlisted. -/
theorem byteClassesPartition : Obligations.ByteClassesPartition := by
  intro km
  obtain ⟨r, ⟨hr, hfree⟩, hunique⟩ := existsUnique_unmapped_letter km
  have hreserved : reservedByte km = some r := reservedByte_eq_some hr hfree (fun b hb hf => hunique b ⟨hb, hf⟩)
  refine ⟨fun b => classify_digit km, ⟨r, hr, hreserved, classify_reservedByte hreserved, ?letters⟩,
    classify_svcByte km, ?unnamed, by decide +kernel⟩
  case letters =>
    intro b hb hne
    have hmapped : ∃ p, keyAt km p = b := by
      by_contra hnone
      exact hne (hunique b ⟨hb, not_exists.1 hnone⟩)
    obtain ⟨p, rfl⟩ := hmapped
    exact ⟨p, classify_keyAt km p⟩
  case unnamed =>
    intro b hb
    have hboth : b ∉ digitBytes ++ letterBytes ∧ b ≠ svcByte := by
      simpa [namedBytes, svcByte, not_or, and_assoc] using hb
    exact classify_of_unlisted km hboth.2 hboth.1

/-! The SELECT commands. -/

/-- The byte of a key arms its coordinate. -/
theorem exec_decodeByte_keyAt (s : State) (p : Coord) : exec (decodeByte (keyAt s.keyMap p)) s = .next (select p s) :=
  exec_decodeByte_of_select (classify_keyAt s.keyMap p)

/-- Settles O12: the key map finds its own byte at the coordinate. -/
theorem keyByteArmsItsCoordinate : Obligations.KeyByteArmsItsCoordinate := exec_decodeByte_keyAt

/-- Settles O15: a digit's command is the decoded digit, which is at a coordinate. -/
theorem digitCommandsArm : Obligations.DigitCommandsArm := by
  intro i b hrow s
  have hdecoded : i = decodeByte b ∧ b ∈ digitBytes := by
    simp only [List.mem_cons, List.mem_nil_iff, or_false, Prod.mk.injEq] at hrow
    rcases hrow with ⟨rfl, rfl⟩ | ⟨rfl, rfl⟩ | ⟨rfl, rfl⟩ | ⟨rfl, rfl⟩ | ⟨rfl, rfl⟩ | ⟨rfl, rfl⟩ | ⟨rfl, rfl⟩ |
      ⟨rfl, rfl⟩ | ⟨rfl, rfl⟩ | ⟨rfl, rfl⟩ <;> decide
  obtain ⟨rfl, hdigit⟩ := hdecoded
  obtain ⟨p, rfl⟩ := digit_is_key s.keyMap hdigit
  exact ⟨p, rfl, exec_decodeByte_keyAt s p⟩

/-- Settles O16: a letter's command is the decoded letter, which is at a coordinate or of class IGNORE. -/
theorem letterCommandsArmOrIgnore : Obligations.LetterCommandsArmOrIgnore := by
  intro i b hrow s
  have hdecoded : i = decodeByte b ∧ b ∈ letterBytes := by
    simp only [List.mem_cons, List.mem_nil_iff, or_false, Prod.mk.injEq] at hrow
    rcases hrow with ⟨rfl, rfl⟩ | ⟨rfl, rfl⟩ | ⟨rfl, rfl⟩ | ⟨rfl, rfl⟩ | ⟨rfl, rfl⟩ | ⟨rfl, rfl⟩ | ⟨rfl, rfl⟩ |
      ⟨rfl, rfl⟩ | ⟨rfl, rfl⟩ | ⟨rfl, rfl⟩ | ⟨rfl, rfl⟩ | ⟨rfl, rfl⟩ <;> decide
  obtain ⟨rfl, hletter⟩ := hdecoded
  constructor
  · rintro p rfl
    exact exec_decodeByte_keyAt s p
  · intro hfree
    exact exec_decodeByte_of_ignore (classify_unmapped_letter hletter hfree)

/-- Settles O17: `'5'` is at (1, 3) in every key map. -/
theorem fiveArmsColumnOneRowThree : Obligations.FiveArmsColumnOneRowThree := by
  intro s
  have hfive : Instr.sel5 = decodeByte (keyAt s.keyMap ⟨1, 3⟩) := by
    rw [keyAt_one_three]
    rfl
  refine ⟨?_, rfl⟩
  rw [hfive]
  exact exec_decodeByte_keyAt s ⟨1, 3⟩

end Sys2Proof.Machine
end

section
/-! PROOFS. Runs of moves, and the two facts about them that need no more than one field: CLOCK counts the ticks, and the
bytes sent and queued only grow at the end (10_state.md section 2, 20_memory.md section 1). -/

namespace Sys2Proof.Machine

theorem runMoves_nil_iff {s t : State} : runMoves [] s = .next t ↔ s = t := by
  simp [runMoves]

theorem runMoves_cons_iff {m : Move} {ms : List Move} {s t : State} :
    runMoves (m :: ms) s = .next t ↔ ∃ u, act m s = .next u ∧ runMoves ms u = .next t := by
  cases h : act m s <;> simp [runMoves, h]

/-- What holds between a state and itself, is transitive, and holds across each move of a run holds across the run. -/
theorem runMoves_rel {R : State → State → Prop} (hrefl : ∀ s, R s s) (htrans : ∀ s u t, R s u → R u t → R s t)
    {ms : List Move} (hstep : ∀ m ∈ ms, ∀ s t, act m s = .next t → R s t) {s t : State}
    (h : runMoves ms s = .next t) : R s t := by
  induction ms generalizing s with
  | nil =>
    obtain rfl := runMoves_nil_iff.1 h
    exact hrefl s
  | cons m ms ih =>
    obtain ⟨u, hact, hrun⟩ := runMoves_cons_iff.1 h
    have hfirst : R s u := hstep m List.mem_cons_self s u hact
    have hrest : R u t := ih (fun m' hm' => hstep m' (List.mem_cons_of_mem m hm')) hrun
    exact htrans s u t hfirst hrest

/-! CLOCK. -/

theorem tickCount_tick (ms : List Move) : tickCount (.tick :: ms) = tickCount ms + 1 := List.count_cons_self

theorem tickCount_other {m : Move} (h : m ≠ .tick) (ms : List Move) : tickCount (m :: ms) = tickCount ms :=
  List.count_cons_of_ne h

theorem act_tick (s : State) : act .tick s = .next { s with clock := s.clock + 1 } := rfl

/-- Settles O24: the sum is modulo 2^32, the width of CLOCK. -/
theorem tickAddsOne : Obligations.TickAddsOne := by
  intro s
  refine ⟨⟨_, act_tick s, rfl, ?_⟩, ?wrap⟩
  · exact BitVec.toNat_add s.clock 1
  case wrap =>
    intro hmax
    rw [act_tick, hmax]
    rfl

/-- Settles O25, by induction on the moves: a TICK adds 1 to both sides, and no other move writes CLOCK. -/
theorem clockCountsTicks : Obligations.ClockCountsTicks := by
  intro ms
  induction ms with
  | nil =>
    intro s t h
    obtain rfl := runMoves_nil_iff.1 h
    simp [tickCount]
  | cons m ms ih =>
    intro s t h
    obtain ⟨u, hact, hrun⟩ := runMoves_cons_iff.1 h
    have hrest := ih u t hrun
    rcases act_clock hact with ⟨rfl, htick⟩ | ⟨hother, hkept⟩
    · rw [hrest, htick, tickCount_tick, Nat.add_comm, BitVec.ofNat_add, BitVec.add_assoc]
      rfl
    · rw [hrest, hkept, tickCount_other hother]

/-! The queues. -/

theorem ne_append_singleton {α : Type} (q : List α) (b : α) : q ≠ q ++ [b] := by simp

theorem ne_append_of_tail {α : Type} {q q' : List α} {b : α} (h : q = b :: q') (b' : α) : q' ≠ q ++ [b'] := by
  rintro rfl
  have hlen := congrArg List.length h
  simp only [List.length_cons, List.length_append] at hlen
  omega

/-- A queue that gained a byte had room. -/
theorem length_ne_of_room {q : Queue} (h : qFull q = false) : q.length ≠ 128 := (qFull_eq_false_iff q).1 h

/-- Settles O22: the changes `act_h2d` and `act_d2h` allow are these, each of one queue. -/
theorem queueStepsKeepFifo : Obligations.QueueStepsKeepFifo := by
  intro m s t h
  refine ⟨?h2d, ?d2h, ?one, ?d2hFull, ?h2dFull⟩
  case h2d =>
    rcases act_h2d h with hkept | ⟨b, -, -, hgain⟩ | ⟨_, b, -, -, -, hloss⟩
    · exact .inl hkept
    · exact .inr (.inl ⟨b, hgain⟩)
    · exact .inr (.inr ⟨b, hloss⟩)
  case d2h =>
    rcases act_d2h h with ⟨hkept, -⟩ | ⟨_, b, -, -, -, -, hgain, -⟩ | ⟨b, -, -, hloss, -⟩ | ⟨b, -, -, hloss, -⟩
    · exact .inl hkept
    · exact .inr (.inl ⟨b, hgain⟩)
    · exact .inr (.inr ⟨b, hloss⟩)
    · exact .inr (.inr ⟨b, hloss⟩)
  case one =>
    rcases act_d2h h with ⟨hkept, -⟩ | ⟨_, _, -, hkept, -⟩ | ⟨_, -, hkept, -⟩ | ⟨_, -, hkept, -⟩
    · exact .inr hkept
    · exact .inl hkept
    · exact .inl hkept
    · exact .inl hkept
  case d2hFull =>
    intro hfull b
    rcases act_d2h h with ⟨hkept, -⟩ | ⟨_, _, -, -, -, hroom, -⟩ | ⟨_, -, -, hloss, -⟩ | ⟨_, -, -, hloss, -⟩
    · rw [hkept]
      exact ne_append_singleton s.d2h b
    · exact absurd hfull (length_ne_of_room hroom)
    · exact ne_append_of_tail hloss b
    · exact ne_append_of_tail hloss b
  case h2dFull =>
    intro hfull b
    rcases act_h2d h with hkept | ⟨_, -, hroom, -⟩ | ⟨_, _, -, -, -, hloss⟩
    · rw [hkept]
      exact ne_append_singleton s.h2d b
    · exact absurd hfull (length_ne_of_room hroom)
    · exact ne_append_of_tail hloss b

/-- One move leaves the bytes sent and still queued in place, unless sendByte's error loses one. -/
theorem act_sent_prefix {m : Move} {s t : State} (h : act m s = .next t) (hm : m ≠ .hostSend (.error true)) :
    s.d2hOut ++ s.d2h <+: t.d2hOut ++ t.d2h := by
  rcases act_d2h h with ⟨hq, hout⟩ | ⟨_, b, -, -, -, -, hq, hout⟩ | ⟨b, -, -, hq, hout⟩ | ⟨_, hlost, -⟩
  · rw [hq, hout]
  · rw [hq, hout, ← List.append_assoc]
    exact List.prefix_append _ [b]
  · rw [hq, hout, List.append_cons]
  · exact absurd hlost hm

/-- Settles O23: being a leading part is reflexive and transitive, and each move keeps it. -/
theorem sentBytesAreFifo : Obligations.SentBytesAreFifo := by
  intro ms s t hrun hms
  exact runMoves_rel (R := fun s t => s.d2hOut ++ s.d2h <+: t.d2hOut ++ t.d2h) (fun _ => List.prefix_rfl)
    (fun _ _ _ => List.IsPrefix.trans) (fun m hm _ _ hact => act_sent_prefix hact (hms m hm)) hrun

/-- Settles O21: the reads are lengths, and a non-empty queue is its head and the rest. -/
theorem queueReadsAndRemoval : Obligations.QueueReadsAndRemoval := by
  refine ⟨fun q => ⟨rfl, ?empty, qFull_iff q⟩, fun b q => ⟨rfl, rfl⟩, rfl, rfl, rfl⟩
  case empty => rw [qEmpty_iff, List.length_eq_zero_iff]

/-! The steps that fill and drain the queues (40_sequencer.md R66, 42_command_decoder.md R85). -/

theorem enqDrop_eq_ite (q : Queue) (b : Byte) : enqDrop q b = if q.length = 128 then q else q ++ [b] := by
  split
  next hfull => exact enqDrop_of_full ((qFull_iff q).2 hfull) b
  next hroom => exact enqDrop_of_room ((qFull_eq_false_iff q).2 hroom) b

theorem act_main_ack {s : State} (h : s.ph = .ack) (k : BitVec 7) : act (.main k) s = .next (acknowledge s) := by
  simp [act, enabled, mainEnabled, perform, mainStep, h]

/-- Settles O34: Enq of `'='`, then the phase. -/
theorem ackEffect : Obligations.AckEffect := by
  intro k s hph
  rw [act_main_ack hph, ← show ackByte = 0x3D from rfl, ← enqDrop_eq_ite]
  rfl

theorem act_main_xfer {s : State} (h : s.ph = .xfer) (k : BitVec 7) : act (.main k) s = .next (xfer s) := by
  simp [act, enabled, mainEnabled, perform, mainStep, h]

theorem act_of_disabled {m : Move} {s : State} (h : enabled m s = false) : act m s = .next s := by
  simp [act, h]

theorem act_of_enabled {m : Move} {s : State} (h : enabled m s = true) : act m s = perform m s := by
  simp [act, h]

theorem enabled_hostRecv_iff (b : Byte) (s : State) :
    enabled (.hostRecv b) s = true ↔ s.ph = .xfer ∧ s.h2d.length ≠ 128 := by
  simp [enabled, qFull_eq_false_iff]

theorem enabled_hostSend_iff (o : SendOutcome) (s : State) :
    enabled (.hostSend o) s = true ↔ s.ph = .xfer ∧ s.d2h ≠ [] := by
  rw [enabled, Bool.and_eq_true, beq_iff_eq, Bool.not_eq_true', ← Bool.not_eq_true, qEmpty_iff]

/-- Settles O40: each HOST move inside its guard, and outside it. -/
theorem hostMovesEffect : Obligations.HostMovesEffect := by
  refine ⟨fun k s hph => act_main_xfer hph k, ?recv, ?noRecv, ?send, ?noSend⟩
  case recv =>
    intro b s hph hroom
    rw [act_of_enabled ((enabled_hostRecv_iff b s).2 ⟨hph, hroom⟩), perform, hostRecv,
      enqDrop_of_room ((qFull_eq_false_iff _).2 hroom)]
  case noRecv =>
    intro b s hguard
    refine act_of_disabled ?_
    rw [← Bool.not_eq_true, enabled_hostRecv_iff]
    tauto
  case send =>
    intro s b q hph hq
    have hsend (o : SendOutcome) : act (.hostSend o) s = hostSend o s :=
      act_of_enabled ((enabled_hostSend_iff o s).2 ⟨hph, by simp [hq]⟩)
    simp [hsend, hostSend, takeD2H, hq, peek, deq]
  case noSend =>
    intro o s hguard
    refine act_of_disabled ?_
    rw [← Bool.not_eq_true, enabled_hostSend_iff]
    tauto

end Sys2Proof.Machine
end

section
/-! PROOFS. The debounce comparison (41_matrix_scanner.md section 2, 70_reset_and_hazards.md section 3). -/

namespace Sys2Proof.Machine

theorem accept_raw_eq_false_iff (t d : Word) : accept .raw t d = false ↔ t.toNat ≤ d.toNat := by
  rw [← Bool.not_eq_true, accept_raw_iff, Nat.not_lt]

/-- The elapsed time that WRAP_SAFE tests, as a number. -/
theorem accept_wrapSafe_iff_toNat (t d : Word) :
    accept .wrapSafe t d = true ↔
      1 ≤ (t.toNat + 2 ^ 32 - d.toNat) % 2 ^ 32 ∧ (t.toNat + 2 ^ 32 - d.toNat) % 2 ^ 32 ≤ 2 ^ 31 - 1 := by
  have hd := d.isLt
  have hsub : (t - d).toNat = (t.toNat + 2 ^ 32 - d.toNat) % 2 ^ 32 := by
    rw [BitVec.toNat_sub]
    congr 1
    omega
  rw [accept_wrapSafe_iff, hsub]

/-- With clock and deadline below 2^31 and the deadline not ahead, both forms ask for a positive difference. -/
theorem accept_raw_eq_wrapSafe {t d : Word} (ht : t.toNat ≤ 2 ^ 31 - 1) (hd : d.toNat ≤ t.toNat) :
    accept .raw t d = accept .wrapSafe t d := by
  rw [Bool.eq_iff_iff, accept_raw_iff, accept_wrapSafe_iff_toNat]
  omega

theorem newDeadline_toNat_of_noWrap {t : Word} (h : t.toNat + 100 < 2 ^ 32) : (newDeadline t).toNat = t.toNat + 100 := by
  rw [newDeadline_toNat, Nat.mod_eq_of_lt h]

theorem newDeadline_toNat_of_wrap {t : Word} (h : 2 ^ 32 - 100 ≤ t.toNat) :
    (newDeadline t).toNat = t.toNat + 100 - 2 ^ 32 := by
  have ht := t.isLt
  rw [newDeadline_toNat]
  omega

/-- Settles O29: the two forms as numbers, and the sum that does not wrap. -/
theorem acceptForms : Obligations.AcceptForms := by
  refine ⟨accept_raw_iff, accept_wrapSafe_iff_toNat, fun t d => accept_raw_eq_wrapSafe, ?first⟩
  case first =>
    intro t t0 hnowrap
    rw [accept_raw_iff, newDeadline_toNat_of_noWrap hnowrap]
    omega

/-- Up to 100 ticks after an acceptance the difference to the new deadline is 0 or, as a word, 2^32 - 100 and more. -/
theorem accept_wrapSafe_within_debounce (t : Word) {n : Nat} (hn : n ≤ 100) :
    accept .wrapSafe (t + BitVec.ofNat 32 n) (newDeadline t) = false := by
  have ht := t.isLt
  rw [← Bool.not_eq_true, accept_wrapSafe_iff_toNat, newDeadline_toNat, BitVec.toNat_add, BitVec.toNat_ofNat]
  omega

/-- Settles O30: a wrapped deadline is a small number, and WRAP_SAFE rejects a difference of half the range or more. -/
theorem clockWrapEffects : Obligations.ClockWrapEffects := by
  refine ⟨fun t d => (accept_raw_eq_false_iff t d).2, ?wrapped, fun t n => accept_wrapSafe_within_debounce t, ?stale⟩
  case wrapped =>
    intro t hwrap
    refine ⟨newDeadline_toNat_of_wrap hwrap, ?_⟩
    intro t' hlater
    rw [accept_raw_iff, newDeadline_toNat_of_wrap hwrap]
    omega
  case stale =>
    intro t d hstale
    rw [← Bool.not_eq_true, accept_wrapSafe_iff]
    omega

end Sys2Proof.Machine
end

section
/-! PROOFS. SCAN_ROW: the press, its deadline, and the keypad it reads (41_matrix_scanner.md sections 1 to 4). -/

namespace Sys2Proof.Machine

/-! One row. -/

theorem act_main_scanRow {s : State} {c : Col} {r : Row} (h : s.ph = .scanRow c r) (k : BitVec 7) :
    act (.main k) s = .next (scanRow c r k s) := by
  simp [act, enabled, mainEnabled, perform, mainStep, h]

theorem scanRow_of_high {c : Col} {r : Row} {k : BitVec 7} (h : senseLine k r = .high) (s : State) :
    scanRow c r k s = setPhase (afterRow c r) s := by
  rw [scanRow, h]
  rfl

theorem scanRow_of_rejected {c : Col} {r : Row} {s : State}
    (h : accept s.params.debounceCmp s.clock (gridGet s.dl ⟨c, r⟩) = false) (k : BitVec 7) :
    scanRow c r k s = setPhase (afterRow c r) s := by
  cases hl : senseLine k r with
  | high => exact scanRow_of_high hl s
  | low => simp [scanRow, qualifyPress, hl, h]

theorem scanRow_of_accepted {c : Col} {r : Row} {k : BitVec 7} {s : State} (hl : senseLine k r = .low)
    (h : accept s.params.debounceCmp s.clock (gridGet s.dl ⟨c, r⟩) = true) :
    scanRow c r k s = setPhase (afterRow c r) (acceptPress ⟨c, r⟩ s.clock s) := by
  simp [scanRow, qualifyPress, hl, h]

/-- The row after row r, or the release after row 6. -/
theorem afterRow_eq {c : Col} {r : Row} {nxt : Phase}
    (h : (∃ r' : Row, r'.val = r.val + 1 ∧ nxt = .scanRow c r') ∨ (r.val = 6 ∧ nxt = .scanRelease c)) :
    afterRow c r = nxt := by
  rcases h with ⟨r', hr', rfl⟩ | ⟨hr, rfl⟩
  · have hlt : r.val < 6 := by omega
    have hsucc : r + 1 = r' := by
      apply Fin.ext
      rw [Fin.val_add, hr']
      exact Nat.mod_eq_of_lt (by omega)
    rw [afterRow, if_pos hlt, hsucc]
  · rw [afterRow, if_neg (by omega)]

/-- Settles O27: the row HIGH, the press rejected, and the press accepted, which writes its own deadline only. -/
theorem scanRowEffect : Obligations.ScanRowEffect := by
  intro k s c r nxt hph hnext
  rw [act_main_scanRow hph, ← afterRow_eq hnext]
  refine ⟨?high, ?rejected, ?accepted⟩
  case high =>
    intro hbit
    rw [scanRow_of_high ((senseLine_eq_high k r).2 hbit)]
    rfl
  case rejected =>
    intro hreject
    rw [scanRow_of_rejected hreject]
    rfl
  case accepted =>
    intro hbit haccept
    refine ⟨_, rfl, ?_⟩
    rw [scanRow_of_accepted ((senseLine_eq_low k r).2 hbit) haccept, ← enqDrop_eq_ite]
    exact ⟨gridGet_gridSet_same _ _ _, fun p hp => gridGet_gridSet_other _ _ hp.symm, rfl⟩

/-! The deadlines. -/

/-- An accepted press moves the deadline of its own coordinate. -/
theorem act_gridGet_dl {m : Move} {s t : State} (h : act m s = .next t) (p : Coord) :
    gridGet t.dl p = gridGet s.dl p ∨ (PressAccepted m s p ∧ gridGet t.dl p = newDeadline s.clock) := by
  rcases act_dl h with hkept | ⟨q, hpress, hset⟩
  · exact .inl (by rw [hkept])
  · rw [hset]
    by_cases hqp : q = p
    · rw [← hqp]
      exact .inr ⟨hpress, gridGet_gridSet_same _ _ _⟩
    · exact .inl (gridGet_gridSet_other _ _ hqp)

/-- Settles O31: no other move writes DL at the coordinate. -/
theorem deadlineMovesOnAcceptedPress : Obligations.DeadlineMovesOnAcceptedPress := by
  intro m s t p hact hne
  exact (act_gridGet_dl hact p).resolve_left hne

theorem gridGet_dl_of_pressAccepted {m : Move} {s t : State} {p : Coord} (hpress : PressAccepted m s p)
    (h : act m s = .next t) : gridGet t.dl p = newDeadline s.clock := by
  obtain ⟨k, rfl, hph, hl, ha⟩ := hpress
  rw [act_main_scanRow hph, scanRow_of_accepted hl ha, Host.Outcome.next.injEq] at h
  subst h
  exact gridGet_gridSet_same _ _ _

/-- Under RAW an accepted press has its clock past its deadline. -/
theorem lt_clock_of_pressAccepted {m : Move} {s : State} {p : Coord} (hpress : PressAccepted m s p)
    (hraw : s.params.debounceCmp = .raw) : (gridGet s.dl p).toNat < s.clock.toNat := by
  obtain ⟨k, -, -, -, ha⟩ := hpress
  rw [hraw] at ha
  exact (accept_raw_iff _ _).1 ha

/-- After an acceptance at `p` at clock `t0`: the deadline of `p` is still the one stored then, or its time is over. -/
def DebounceHolds (p : Coord) (t0 : Word) (s : State) : Prop :=
  gridGet s.dl p = newDeadline t0 ∨ t0.toNat + 101 ≤ s.clock.toNat

theorem clock_toNat_le_of_noWrap {m : Move} {ms : List Move} {s t : State} (h : act m s = .next t)
    (hwrap : NoClockWrap (m :: ms) s) : s.clock.toNat ≤ t.clock.toNat ∧ NoClockWrap ms t := by
  unfold NoClockWrap at *
  rcases act_clock h with ⟨rfl, htick⟩ | ⟨hother, hkept⟩
  · rw [tickCount_tick] at hwrap
    have hsum : t.clock.toNat = s.clock.toNat + 1 := by
      have hroom : s.clock.toNat + 1 < 2 ^ 32 := by omega
      rw [htick]
      exact BitVec.toNat_add_of_lt (y := 1) hroom
    omega
  · rw [tickCount_other hother] at hwrap
    rw [hkept]
    exact ⟨le_rfl, hwrap⟩

/-- No move shortens the debounce time: a deadline is overwritten only once the clock has passed it. -/
theorem act_debounceHolds {m : Move} {s t : State} {p : Coord} {t0 : Word} (h : act m s = .next t)
    (hraw : s.params.debounceCmp = .raw) (ht0 : t0.toNat + 100 < 2 ^ 32) (hclock : s.clock.toNat ≤ t.clock.toNat)
    (hs : DebounceHolds p t0 s) : DebounceHolds p t0 t := by
  rcases hs with hdl | hover
  · rcases act_gridGet_dl h p with hkept | ⟨hpress, -⟩
    · exact .inl (hkept.trans hdl)
    · have hpast := lt_clock_of_pressAccepted hpress hraw
      rw [hdl, newDeadline_toNat_of_noWrap ht0] at hpast
      exact .inr (by omega)
  · exact .inr (by omega)

theorem runMoves_debounceHolds {ms : List Move} {s t : State} {p : Coord} {t0 : Word} (h : runMoves ms s = .next t)
    (hraw : s.params.debounceCmp = .raw) (ht0 : t0.toNat + 100 < 2 ^ 32) (hwrap : NoClockWrap ms s)
    (hs : DebounceHolds p t0 s) : DebounceHolds p t0 t ∧ t.params.debounceCmp = .raw := by
  induction ms generalizing s with
  | nil =>
    obtain rfl := runMoves_nil_iff.1 h
    exact ⟨hs, hraw⟩
  | cons m ms ih =>
    obtain ⟨u, hact, hrun⟩ := runMoves_cons_iff.1 h
    obtain ⟨hclock, hwrap'⟩ := clock_toNat_le_of_noWrap hact hwrap
    have hraw' : u.params.debounceCmp = .raw := by rw [act_params hact, hraw]
    exact ih hrun hraw' hwrap' (act_debounceHolds hact hraw ht0 hclock hs)

/-- Settles O32: the first press starts the debounce time, which the run keeps, and the second press, past its deadline,
finds it over. -/
theorem emissionsAtLeast101TicksApart : Obligations.EmissionsAtLeast101TicksApart := by
  intro p m s u ms v m' hfirst hact hrun hsecond hraw ht0 hwrap
  have hdl := gridGet_dl_of_pressAccepted hfirst hact
  have hraw' : u.params.debounceCmp = .raw := by rw [act_params hact, hraw]
  obtain ⟨hholds, hrawEnd⟩ := runMoves_debounceHolds hrun hraw' ht0 hwrap (.inl hdl)
  rcases hholds with hstill | hover
  · have hpast := lt_clock_of_pressAccepted hsecond hrawEnd
    rw [hstill, newDeadline_toNat_of_noWrap ht0] at hpast
    omega
  · exact hover

/-! What the keypad is read for. -/

theorem scanRow_congr {k k' : BitVec 7} {r : Row} (h : senseLine k r = senseLine k' r) (c : Col) (s : State) :
    scanRow c r k s = scanRow c r k' s := by
  rw [scanRow, scanRow, h]

/-- Settles O53: MAIN's step names its readings in SCAN_ROW only, and there one line of them. -/
theorem keypadLevelsReachRowReadsOnly : Obligations.KeypadLevelsReachRowReadsOnly := by
  intro k k' s hagree
  have hstep : mainStep k s = mainStep k' s := by
    unfold mainStep
    cases hph : s.ph with
    | scanRow c r => exact congrArg _ (scanRow_congr (hagree c r hph) c s)
    | _ => rfl
  calc act (.main k) s = if mainEnabled s then mainStep k s else .next s := rfl
    _ = if mainEnabled s then mainStep k' s else .next s := by rw [hstep]
    _ = act (.main k') s := rfl

theorem senseLine_referenceKeypad (pressed : List Coord) (cols : BitVec 3) (r : Row) :
    senseLine (referenceKeypad pressed cols) r = .low ↔
      ∃ p ∈ pressed, p.row = r ∧ senseLine cols p.col = .low := by
  simp [senseLine_eq_low, referenceKeypad]

/-- Settles O54: in SCAN_ROW(c, r) the latch is the rest value with column c driven LOW. -/
theorem referenceKeypadReadsPressedKeys : Obligations.ReferenceKeypadReadsPressedKeys := by
  intro s c r pressed hcols hph
  have hlatch : s.kpColOut = driveLine 0b111 c .low := by
    rw [colsMatchPhase_iff, hph] at hcols
    exact hcols
  have honly (j : Col) : senseLine s.kpColOut j = .low ↔ j = c := by
    rw [hlatch, senseLine_eq_low]
    exact getLsbD_driveLine_low_rest3 c j
  refine ⟨honly, ?_⟩
  rw [senseLine_referenceKeypad]
  constructor
  · rintro ⟨⟨c', r'⟩, hmem, rfl, hlow⟩
    obtain rfl : c' = c := (honly c').1 hlow
    exact hmem
  · intro hmem
    exact ⟨⟨c, r⟩, hmem, rfl, (honly c).2 rfl⟩

end Sys2Proof.Machine
end

section
/-! PROOFS. One scan iteration of MAIN (40_sequencer.md, the iteration; 41_matrix_scanner.md section 3). -/

namespace Sys2Proof.Machine

theorem runMoves_append {xs ys : List Move} {s t : State} (h : runMoves xs s = .next t) :
    runMoves (xs ++ ys) s = runMoves ys t := by
  induction xs generalizing s with
  | nil => rw [List.nil_append, runMoves_nil_iff.1 h]
  | cons m xs ih =>
    obtain ⟨u, hact, hrun⟩ := runMoves_cons_iff.1 h
    rw [List.cons_append, runMoves, hact]
    exact ih hrun

/-- Whatever the keypad shows, `n` steps of MAIN alone lead from `s` to a state with `P`. -/
def MainReaches (n : Nat) (s : State) (P : State → Prop) : Prop :=
  ∀ ks : List (BitVec 7), ks.length = n → ∃ t, runMoves (ks.map .main) s = .next t ∧ P t

theorem MainReaches.refl {s : State} {P : State → Prop} (h : P s) : MainReaches 0 s P := by
  intro ks hks
  obtain rfl := List.length_eq_zero_iff.1 hks
  exact ⟨s, rfl, h⟩

theorem MainReaches.of_step {s : State} {P : State → Prop} (h : ∀ k, ∃ t, act (.main k) s = .next t ∧ P t) :
    MainReaches 1 s P := by
  intro ks hks
  obtain ⟨k, rfl⟩ := List.length_eq_one_iff.1 hks
  obtain ⟨t, hact, ht⟩ := h k
  exact ⟨t, runMoves_cons_iff.2 ⟨t, hact, rfl⟩, ht⟩

theorem MainReaches.trans {a b : Nat} {s : State} {P Q : State → Prop} (h : MainReaches a s P)
    (hnext : ∀ t, P t → MainReaches b t Q) : MainReaches (a + b) s Q := by
  intro ks hks
  obtain ⟨u, hfirst, hu⟩ := h (ks.take a) (by simp [hks])
  obtain ⟨t, hrest, ht⟩ := hnext u hu (ks.drop a) (by simp [hks])
  refine ⟨t, ?_, ht⟩
  rw [← List.take_append_drop a ks, List.map_append, runMoves_append hfirst, hrest]

/-- `t` is at a point of the scan that began in `s`: the phase and the columns as given, the events of the scan so far
behind those of `s`, and what the scan does not write as in `s`. -/
structure ScanAt (s : State) (ph : Phase) (cols : BitVec 3) (events : List KpEvent) (t : State) : Prop where
  ph : t.ph = ph
  cols : t.kpColOut = cols
  events : t.kpOut = s.kpOut ++ events
  clock : t.clock = s.clock
  h2d : t.h2d = s.h2d
  arm : t.arm = s.arm
  svcOut : t.svcOut = s.svcOut
  vmcRowOut : t.vmcRowOut = s.vmcRowOut

section

variable {s t : State} {c : Col} {r : Row} {v : BitVec 3} {es : List KpEvent}

theorem ScanAt.xfer_step (h : ScanAt s .xfer v es t) : MainReaches 1 t (ScanAt s (.scanDrive 0) v es) :=
  .of_step fun k => ⟨_, act_main_xfer h.ph k, { h with ph := rfl }⟩

theorem ScanAt.drive_step (h : ScanAt s (.scanDrive c) v es t) :
    MainReaches 1 t (ScanAt s (.scanRow c 0) (driveLine v c .low) (es ++ [.colLow c])) :=
  .of_step fun k => ⟨_, act_main_scanDrive h.ph k,
    { h with
      ph := rfl
      cols := by simp [scanDrive, h.cols]
      events := by simp [scanDrive, h.events] }⟩

theorem ScanAt.release_step (h : ScanAt s (.scanRelease c) v es t) :
    MainReaches 1 t (ScanAt s (afterRelease c) (driveLine v c .high) (es ++ [.colHigh c])) :=
  .of_step fun k => ⟨_, act_main_scanRelease h.ph k,
    { h with
      ph := rfl
      cols := by simp [scanRelease, h.cols]
      events := by simp [scanRelease, h.events] }⟩

theorem scanRow_cases (c : Col) (r : Row) (k : BitVec 7) (s : State) :
    scanRow c r k s = setPhase (afterRow c r) s
    ∨ scanRow c r k s = setPhase (afterRow c r) (acceptPress ⟨c, r⟩ s.clock s) := by
  cases hl : senseLine k r with
  | high => exact .inl (scanRow_of_high hl s)
  | low =>
    cases ha : accept s.params.debounceCmp s.clock (gridGet s.dl ⟨c, r⟩) with
    | false => exact .inl (scanRow_of_rejected ha k)
    | true => exact .inr (scanRow_of_accepted hl ha)

/-- Whether or not it accepts a press, SCAN_ROW writes DL, D2H and PH only. -/
theorem ScanAt.row_step (h : ScanAt s (.scanRow c r) v es t) :
    MainReaches 1 t (ScanAt s (afterRow c r) v es) := by
  refine .of_step fun k => ⟨_, act_main_scanRow h.ph k, ?_⟩
  rcases scanRow_cases c r k t with hpassed | haccepted
  · rw [hpassed]
    exact { h with ph := rfl }
  · rw [haccepted]
    exact { h with ph := rfl }

/-- The rows from r to 6, by induction on how many they are. -/
theorem ScanAt.rows {n : Nat} (hn : n + r.val = 7) (h : ScanAt s (.scanRow c r) v es t) :
    MainReaches n t (ScanAt s (.scanRelease c) v es) := by
  induction n generalizing r t with
  | zero => omega
  | succ n ih =>
    rw [Nat.add_comm]
    refine h.row_step.trans fun u hu => ?_
    by_cases hr : r.val = 6
    · obtain rfl : n = 0 := by omega
      rw [afterRow_eq (.inr ⟨hr, rfl⟩)] at hu
      exact .refl hu
    · have hlt : r.val + 1 < 7 := by omega
      rw [afterRow_eq (.inl ⟨⟨r.val + 1, hlt⟩, rfl, rfl⟩)] at hu
      exact ih (by simp only; omega) hu

/-- A column, from its drive to its release: 9 steps, and the latch is back at rest. -/
theorem ScanAt.column (h : ScanAt s (.scanDrive c) 0b111 es t) :
    MainReaches 9 t (ScanAt s (afterRelease c) 0b111 (es ++ [.colLow c, .colHigh c])) := by
  refine h.drive_step.trans (b := 8) fun u hu => ?_
  refine (hu.rows (n := 7) rfl).trans (b := 1) fun w hw => ?_
  have hrelease := hw.release_step
  rwa [driveLine_high_low_rest3, List.append_assoc] at hrelease

end

/-- Settles O39: the XFER step, then the three columns. -/
theorem scanIterationOrder : Obligations.ScanIterationOrder := by
  intro ks s hks hph hcols
  have hstart : ScanAt s .xfer 0b111 [] s := ⟨hph, hcols, by simp, rfl, rfl, rfl, rfl, rfl⟩
  have hscan : MainReaches (1 + (9 + (9 + 9))) s (ScanAt s .decode 0b111
      [.colLow 0, .colHigh 0, .colLow 1, .colHigh 1, .colLow 2, .colHigh 2]) :=
    hstart.xfer_step.trans fun _ h0 => h0.column.trans fun _ h1 => h1.column.trans fun _ h2 => h2.column
  obtain ⟨t, hrun, ht⟩ := hscan ks hks
  exact ⟨t, hrun, ht.ph, ht.cols, ht.events, ht.clock, ht.h2d, ht.arm, ht.svcOut, ht.vmcRowOut⟩

end Sys2Proof.Machine
end

section
/-! PROOFS. The service wait (42_command_decoder.md section 2; 40_sequencer.md R69, R71). -/

namespace Sys2Proof.Machine

/-! MAIN in SVC_WAIT. -/

theorem svcDone_eq_false_iff (s : State) :
    svcDone s = false ↔ (s.clock - s.svcT0).toNat + s.params.svcTol < 100 := by
  rw [← Bool.not_eq_true, svcDone_iff, Nat.not_le]

theorem mainEnabled_of_svcWait {s : State} (h : s.ph = .svcWait) : mainEnabled s = svcDone s := by
  simp [mainEnabled, h]

theorem mainEnabled_of_not_svcWait {s : State} (h : s.ph ≠ .svcWait) : mainEnabled s = true := by
  cases hph : s.ph with
  | svcWait => exact absurd hph h
  | _ => simp [mainEnabled, hph]

theorem act_main_svcWait_done {s : State} (h : s.ph = .svcWait) (hd : svcDone s = true) (k : BitVec 7) :
    act (.main k) s = .next (svcRelease s) := by
  have he : enabled (.main k) s = true := (mainEnabled_of_svcWait h).trans hd
  rw [act_of_enabled he, perform, mainStep, h]

theorem act_main_svcWait_notDone {s : State} (h : s.ph = .svcWait) (hd : svcDone s = false) (k : BitVec 7) :
    act (.main k) s = .next s :=
  act_of_disabled ((mainEnabled_of_svcWait h).trans hd)

/-- Settles O35: MAIN's step is enabled exactly once the wait is over. -/
theorem svcWaitEffect : Obligations.SvcWaitEffect := by
  intro k s hph
  exact ⟨fun hover => act_main_svcWait_done hph ((svcDone_iff s).2 hover) k,
    fun hearly => act_main_svcWait_notDone hph ((svcDone_eq_false_iff s).2 hearly) k⟩

/-- Settles O18: the arm of SVC, DECODE's two outcomes for an `'s'`, and the two outcomes of a MAIN move in SVC_WAIT. -/
theorem serviceCommandEffect : Obligations.ServiceCommandEffect := by
  refine ⟨fun s => rfl, ?decode, ?wait⟩
  case decode =>
    intro k s q hph hq
    obtain ⟨hnothing, htaken⟩ := decodeStepEffect k s hph
    constructor
    · intro hidle
      obtain ⟨-, hservice, -⟩ := htaken _ q hq hidle
      exact hservice (classify_svcByte s.keyMap)
    · exact fun harmed => hnothing (.inr harmed)
  case wait =>
    intro k s hph
    cases hd : svcDone s with
    | false => exact .inl (act_main_svcWait_notDone hph hd k)
    | true => exact .inr (act_main_svcWait_done hph hd k)

theorem mainEnabled_iff (s : State) :
    mainEnabled s = true ↔ (s.ph = .svcWait → 100 ≤ (s.clock - s.svcT0).toNat + s.params.svcTol) := by
  by_cases hph : s.ph = .svcWait
  · rw [mainEnabled_of_svcWait hph, svcDone_iff]
    simp [hph]
  · simp [mainEnabled_of_not_svcWait hph, hph]

theorem afterRow_ne_self (c : Col) (r : Row) : afterRow c r ≠ .scanRow c r := by
  revert c r
  decide

theorem afterRelease_ne_self (c c' : Col) : afterRelease c ≠ .scanRelease c' := by
  revert c c'
  decide

/-- MAIN's step, where it is enabled, never stays in its phase. -/
theorem act_main_leaves_phase {k : BitVec 7} {s t : State} (he : mainEnabled s = true)
    (h : act (.main k) s = .next t) : t.ph ≠ s.ph := by
  generalize hm : Move.main k = m at h
  cases act_cases h with
  | disabled hd =>
    subst hm
    exact absurd he (by simpa [enabled] using hd)
  | rowPassed hx | rowAccepted hx =>
    rw [hx]
    exact afterRow_ne_self _ _
  | scanRelease hx =>
    rw [hx]
    exact afterRelease_ne_self _ _
  | xfer hx | scanDrive hx | decodeNothing hx | decodeSelect hx | decodeService hx | decodeIgnore hx | ack hx
    | svcRelease hx =>
    rw [hx]
    exact Phase.noConfusion
  | _ => cases hm

/-- Settles O38: the guard read off, the step it lets through, and the idle turn. -/
theorem mainWaitsOnlyInSvcWait : Obligations.MainWaitsOnlyInSvcWait := by
  intro k s
  refine ⟨mainEnabled_iff s, ?moves, fun hwait => act_of_disabled hwait⟩
  case moves =>
    intro he
    obtain ⟨t, hact⟩ := act_next (.main k) s
    exact ⟨t, hact, act_main_leaves_phase he hact⟩

/-! The wait, as a run sees it. -/

/-- `t` is `s` but for what TICK, BUS and the detector write. -/
def SameButInputs (s t : State) : Prop :=
  t = { s with clock := t.clock, cnPending := t.cnPending, vmcColSense := t.vmcColSense }

theorem SameButInputs.refl (s : State) : SameButInputs s s := rfl

theorem SameButInputs.trans {s u t : State} (hsu : SameButInputs s u) (hut : SameButInputs u t) :
    SameButInputs s t := by
  rw [SameButInputs, hut, hsu]

/-- While the wait lasts and nothing is armed, no move writes anything else: MAIN and HOST have no step, and PCN finds no
target. -/
theorem act_sameButInputs_of_svcWait {m : Move} {s t : State} (h : act m s = .next t) (hph : s.ph = .svcWait)
    (hidle : s.arm.col = none) (hd : svcDone s = false) : SameButInputs s t := by
  cases act_cases h with
  | disabled | retry | kept => exact .refl s
  | tick | bus | pcnIgnored => rfl
  | pcnFired _ hg =>
    rw [pcnGuard_of_idle hidle] at hg
    cases hg
  | svcRelease _ hdone =>
    rw [hd] at hdone
    cases hdone
  | recv hx | sent hx | lost hx | xfer hx | scanDrive hx | rowPassed hx | rowAccepted hx | scanRelease hx
    | decodeNothing hx | decodeSelect hx | decodeService hx | decodeIgnore hx | ack hx =>
    rw [hph] at hx
    cases hx

/-- A tick adds 1 to the elapsed time, as long as that does not wrap. -/
theorem svcElapsed_tick {clock t0 : Word} (h : (clock - t0).toNat < 100) :
    (clock + 1 - t0).toNat = (clock - t0).toNat + 1 := by
  have hsum : clock + 1 - t0 = clock - t0 + 1 := by
    rw [BitVec.sub_eq_add_neg, BitVec.sub_eq_add_neg, BitVec.add_assoc, BitVec.add_assoc, BitVec.add_comm 1]
  have hroom : (clock - t0).toNat + 1 < 2 ^ 32 := Nat.lt_trans (Nat.succ_lt_succ h) (by decide)
  rw [hsum]
  exact BitVec.toNat_add_of_lt (y := 1) hroom

/-- By induction on the moves: the elapsed time and the ticks to come stay below the bound. -/
theorem runMoves_sameButInputs_of_svcWait {ms : List Move} {s t : State} (h : runMoves ms s = .next t)
    (hph : s.ph = .svcWait) (hidle : s.arm.col = none)
    (hbound : (s.clock - s.svcT0).toNat + tickCount ms + s.params.svcTol < 100) : SameButInputs s t := by
  induction ms generalizing s with
  | nil =>
    obtain rfl := runMoves_nil_iff.1 h
    exact .refl s
  | cons m ms ih =>
    obtain ⟨u, hact, hrun⟩ := runMoves_cons_iff.1 h
    have hd : svcDone s = false := (svcDone_eq_false_iff s).2 (by omega)
    have hu : SameButInputs s u := act_sameButInputs_of_svcWait hact hph hidle hd
    have hboundRest : (u.clock - s.svcT0).toNat + tickCount ms + s.params.svcTol < 100 := by
      rcases act_clock hact with ⟨rfl, htick⟩ | ⟨hother, hkept⟩
      · rw [tickCount_tick] at hbound
        rw [htick, svcElapsed_tick (by omega)]
        omega
      · rw [tickCount_other hother] at hbound
        rwa [hkept]
    have hph' : u.ph = .svcWait := by rw [hu, hph]
    have hidle' : u.arm.col = none := by rw [hu, hidle]
    have hbound' : (u.clock - u.svcT0).toNat + tickCount ms + u.params.svcTol < 100 := by
      have ht0 : u.svcT0 = s.svcT0 := by rw [hu]
      rwa [ht0, act_params hact]
    exact hu.trans (ih hrun hph' hidle' hbound')

/-- Settles O36: the wait starts with no time elapsed, and the fields named are not among the inputs. -/
theorem serviceWaitFreezesMain : Obligations.ServiceWaitFreezesMain := by
  intro ms s t hph ht0 hidle hrun hticks
  have hstart : (s.clock - s.svcT0).toNat = 0 := by simp [ht0]
  have hsame : SameButInputs s t := runMoves_sameButInputs_of_svcWait hrun hph hidle (by omega)
  rw [hsame]
  exact ⟨hph, rfl, rfl, rfl, rfl, rfl, rfl, rfl, rfl, rfl, rfl, rfl⟩

end Sys2Proof.Machine
end

section
/-! PROOFS. Every service wait ends, under the fairness assumptions (40_sequencer.md R71; 92_eei_decisions.md D36). -/

namespace Sys2Proof.Machine

/-- The ticks of the wait so far, as a number. -/
def waited (s : State) : Nat := (s.clock - s.svcT0).toNat

/-- What the end of a service wait leaves. -/
def SvcReleased (s : State) : Prop := s.ph = .xfer ∧ s.svcOut = .hiz ∧ s.svcOutT.getLast? = some .svcRelease

theorem svcReleased_svcRelease (s : State) : SvcReleased (svcRelease s) :=
  ⟨rfl, rfl, List.getLast?_concat⟩

/-- A move in SVC_WAIT ends the wait, which only a wait that is over allows, or goes on with it. -/
theorem act_of_svcWait {m : Move} {s t : State} (h : act m s = .next t) (hph : s.ph = .svcWait) :
    (svcDone s = true ∧ SvcReleased t) ∨ (t.ph = .svcWait ∧ t.svcT0 = s.svcT0) := by
  rcases act_svc h with ⟨-, -, ht0, hkept⟩ | ⟨_, -, hdecode, -⟩ | ⟨_, -, -, hd, rfl⟩
  · exact .inr ⟨hkept.2 hph, ht0⟩
  · rw [hph] at hdecode
    cases hdecode
  · exact .inl ⟨hd, svcReleased_svcRelease s⟩

theorem svcDone_eq_false_iff_waited (s : State) : svcDone s = false ↔ waited s + s.params.svcTol < 100 :=
  svcDone_eq_false_iff s

/-- A move in a wait that is not over: it goes on, a TICK longer or as it was. -/
theorem act_waits {m : Move} {s t : State} (h : act m s = .next t) (hph : s.ph = .svcWait) (hd : svcDone s = false) :
    t.ph = .svcWait ∧ t.params = s.params ∧
      ((m = .tick ∧ waited t = waited s + 1) ∨ (m ≠ .tick ∧ waited t = waited s)) := by
  rcases act_of_svcWait h hph with ⟨hover, -⟩ | ⟨hph', ht0⟩
  · rw [hd] at hover
    cases hover
  · refine ⟨hph', act_params h, ?_⟩
    have hbound := (svcDone_eq_false_iff_waited s).1 hd
    rcases act_clock h with ⟨hm, htick⟩ | ⟨hm, hkept⟩
    · refine .inl ⟨hm, ?_⟩
      rw [waited, htick, ht0]
      exact svcElapsed_tick (show waited s < 100 by omega)
    · exact .inr ⟨hm, by rw [waited, waited, hkept, ht0]⟩

/-- Where MAIN moves in SVC_WAIT and is enabled, the wait ends. -/
theorem svcReleased_of_main {m : Move} {s t : State} (h : act m s = .next t) (hph : s.ph = .svcWait)
    (he : mainEnabled s = true) (hm : agentOf m = .main) : SvcReleased t := by
  obtain ⟨k, rfl⟩ : ∃ k, m = .main k := by
    cases m with
    | main k => exact ⟨k, rfl⟩
    | _ => cases hm
  rw [mainEnabled_of_svcWait hph] at he
  rw [act_main_svcWait_done hph he, Host.Outcome.next.injEq] at h
  exact h ▸ svcReleased_svcRelease s

section

variable {σ : Nat → State} {μ : Nat → Move}

/-- From a wait, a run is released at some point up to any later one, or still waits there. -/
theorem released_or_waits (hrun : IsRun σ μ) {n : Nat} (hph : (σ n).ph = .svcWait) (d : Nat) :
    (∃ j, n < j ∧ SvcReleased (σ j)) ∨ (σ (n + d)).ph = .svcWait := by
  induction d with
  | zero => exact .inr hph
  | succ d ih =>
    rcases ih with hreleased | hwaits
    · exact .inl hreleased
    · rcases act_of_svcWait (hrun (n + d)) hwaits with ⟨-, hreleased⟩ | ⟨hstill, -⟩
      · exact .inl ⟨n + d + 1, by omega, hreleased⟩
      · exact .inr hstill

/-- A wait that is not over sees a TICK, before which nothing of it changes: by induction on the distance of that TICK. -/
theorem waits_one_more_tick (hrun : IsRun σ μ) {d n : Nat} (htick : μ (n + d) = .tick) (hph : (σ n).ph = .svcWait)
    (hd : svcDone (σ n) = false) :
    ∃ j, n ≤ j ∧ (σ j).ph = .svcWait ∧ (σ j).params = (σ n).params ∧ waited (σ j) = waited (σ n) + 1 := by
  induction d generalizing n with
  | zero =>
    obtain ⟨hph', hparams, ⟨-, hone⟩ | ⟨hother, -⟩⟩ := act_waits (hrun n) hph hd
    · exact ⟨n + 1, by omega, hph', hparams, hone⟩
    · exact absurd htick hother
  | succ d ih =>
    obtain ⟨hph', hparams, ⟨-, hone⟩ | ⟨-, hsame⟩⟩ := act_waits (hrun n) hph hd
    · exact ⟨n + 1, by omega, hph', hparams, hone⟩
    · have hd' : svcDone (σ (n + 1)) = false := by
        rw [svcDone_eq_false_iff_waited] at hd ⊢
        rwa [hsame, hparams]
      have htick' : μ (n + 1 + d) = .tick := by rwa [Nat.add_assoc, Nat.add_comm 1 d]
      obtain ⟨j, hj, hphj, hparamsj, hone⟩ := ih htick' hph' hd'
      exact ⟨j, by omega, hphj, hparamsj.trans hparams, hone.trans (by rw [hsame])⟩

/-- TICK coming, every wait gets over: by induction on the ticks it still needs. -/
theorem wait_gets_over (hrun : IsRun σ μ) (hfair : FairTick μ) {need n : Nat} (hph : (σ n).ph = .svcWait)
    (hneed : 100 ≤ waited (σ n) + (σ n).params.svcTol + need) :
    ∃ j, n ≤ j ∧ (σ j).ph = .svcWait ∧ svcDone (σ j) = true := by
  induction need generalizing n with
  | zero => exact ⟨n, le_rfl, hph, (svcDone_iff (σ n)).2 hneed⟩
  | succ need ih =>
    cases hd : svcDone (σ n) with
    | true => exact ⟨n, le_rfl, hph, hd⟩
    | false =>
      obtain ⟨i, hi, htick⟩ := hfair n
      obtain ⟨d, rfl⟩ := Nat.exists_eq_add_of_le hi
      obtain ⟨j, hj, hphj, hparams, hone⟩ := waits_one_more_tick hrun htick hph hd
      obtain ⟨l, hl, hover⟩ := ih hphj (by rw [hone, hparams]; omega)
      exact ⟨l, by omega, hover⟩

end

/-- Settles O37: the ticks get the wait over, and then MAIN, fair, moves where it is enabled. The wait may have ended before
that; if not, that move ends it. Ticks in between may take the elapsed time round to 0, but MAIN's turn is one at which it
is enabled. -/
theorem serviceEventuallyReleased : Obligations.ServiceEventuallyReleased := by
  intro σ μ hrun hmain htick n hph
  have hneed : 100 ≤ waited (σ n) + (σ n).params.svcTol + 100 := by omega
  obtain ⟨j, hj, hphj, hover⟩ := wait_gets_over hrun htick hph hneed
  obtain ⟨i, hi, henabled, hagent⟩ := hmain j ((mainEnabled_of_svcWait hphj).trans hover)
  obtain ⟨d, rfl⟩ := Nat.exists_eq_add_of_le hi
  rcases released_or_waits hrun hphj d with ⟨l, hl, hreleased⟩ | hwaits
  · exact ⟨l, by omega, hreleased⟩
  · exact ⟨j + d + 1, by omega, svcReleased_of_main (hrun (j + d)) hwaits henabled hagent⟩

end Sys2Proof.Machine
end

section
/-! PROOFS. The pulse generator: the bus and its detector, the pin-change interrupt, the pulse, and who arms and disarms
(43_pulse_generator.md; 10_state.md section 3). -/

namespace Sys2Proof.Machine

/-! The bus. -/

theorem act_bus (c : Col) (l : Level) (s : State) : act (.bus c l) s = .next (busMove c l s) := rfl

theorem cnAfter_iff (s : State) (c : Col) (l : Level) :
    cnAfter s c l = true ↔
      s.cnPending = true ∨ (cnWatches s.params.cnSrc c = true ∧ senseLine s.vmcColSense c ≠ l) := by
  simp [cnAfter]

/-- After a BUS move a line reads as driven, or as before. -/
theorem senseLine_driveLine_col (v : BitVec 3) (c j : Col) (l : Level) :
    senseLine (driveLine v c l) j = if j = c then l else senseLine v j := by
  split
  next hj =>
    subst hj
    exact senseLine_driveLine_same v j.isLt l
  next hj => exact senseLine_driveLine_other v (fun h => hj (Fin.ext h.symm)) l

/-- Settles O41: the driven line, the detector, and the two columns of each choice of CN_SRC. -/
theorem busMoveAndDetector : Obligations.BusMoveAndDetector := by
  constructor
  · intro c l s
    refine ⟨busMove c l s, act_bus c l s, ?driven, ?others, cnAfter_iff s c l, rfl⟩
    case driven => rw [busMove_vmcColSense, senseLine_driveLine_col, if_pos rfl]
    case others =>
      intro j hj
      rw [busMove_vmcColSense, senseLine_driveLine_col, if_neg hj]
  · intro src
    cases src <;> rfl

/-! The pin-change interrupt. -/

theorem act_pcn_pending {s : State} (h : s.cnPending = true) : act .pcn s = .next (pcn s) := act_of_enabled h

theorem act_pcn_not_pending {s : State} (h : s.cnPending = false) : act .pcn s = .next s := act_of_disabled h

theorem pcn_of_guard_none {s : State} (h : pcnGuard s = none) : pcn s = { s with cnPending := false } := by
  have hguard : pcnGuard (takeInterrupt .pinChange s) = none := h
  rw [pcn, returnFromInterrupt_eq, pcnHandler, hguard]
  rfl

theorem pcn_of_guard_some {s : State} {p : Pulse} (h : pcnGuard s = some p) :
    pcn s = firePulse p { s with cnPending := false } := by
  have hguard : pcnGuard (takeInterrupt .pinChange s) = some p := h
  rw [pcn, returnFromInterrupt_eq, pcnHandler, hguard]
  rfl

theorem act_pcn_ignored {s : State} (hp : s.cnPending = true) (h : pcnGuard s = none) :
    act .pcn s = .next { s with cnPending := false } := by
  rw [act_pcn_pending hp, pcn_of_guard_none h]

theorem act_pcn_fired {s : State} {p : Pulse} (hp : s.cnPending = true) (h : pcnGuard s = some p) :
    act .pcn s = .next (firePulse p { s with cnPending := false }) := by
  rw [act_pcn_pending hp, pcn_of_guard_some h]

/-- The armed coordinate is the pulse, once its column reads LOW. -/
theorem pcnGuard_of_low {s : State} {c : Col} (h : s.arm.col = some c) (hl : senseLine s.vmcColSense c = .low) :
    pcnGuard s = some ⟨c, s.arm.row⟩ := by
  rw [pcnGuard_of_armed h, if_pos hl]

theorem pcnGuard_of_high {s : State} {c : Col} (h : s.arm.col = some c) (hh : senseLine s.vmcColSense c = .high) :
    pcnGuard s = none := by
  rw [pcnGuard_of_armed h, if_neg (by simp [hh])]

/-- Settles O42: no entry without the flag, a guard that lets nothing through, and the pulse. -/
theorem pcnEffect : Obligations.PcnEffect := by
  refine ⟨fun s => act_pcn_not_pending, fun s hp harm => act_pcn_ignored hp (pcnGuard_of_idle harm),
    fun s c hp harm hhigh => act_pcn_ignored hp (pcnGuard_of_high harm hhigh), ?low⟩
  case low =>
    intro s c hp harm hlow
    refine ⟨_, act_pcn_fired hp (pcnGuard_of_low harm hlow), ?row, ?others, rfl⟩
    case row =>
      rw [firePulse_vmcRowOut, runPulse_rowOut]
      exact getLsbD_driveLine_same _ s.arm.row .high
    case others =>
      intro j hj
      rw [firePulse_vmcRowOut, runPulse_rowOut]
      exact getLsbD_driveLine_other _ hj .high

/-- A TICK before or after the PCN step makes no difference: neither reads what the other writes. -/
theorem pcn_tick_comm (s : State) :
    pcn { s with clock := s.clock + 1 } = { pcn s with clock := (pcn s).clock + 1 } := by
  have hsame : pcnGuard { s with clock := s.clock + 1 } = pcnGuard s := rfl
  cases hg : pcnGuard s with
  | none =>
    rw [pcn_of_guard_none hg, pcn_of_guard_none (hsame.trans hg)]
  | some p =>
    rw [pcn_of_guard_some hg, pcn_of_guard_some (hsame.trans hg)]
    rfl

/-- Settles O52: TICK leaves CN_PENDING, so PCN is enabled in both orders or in neither. -/
theorem tickAndPcnCommute : Obligations.TickAndPcnCommute := by
  intro s
  cases hp : s.cnPending with
  | false => exact ⟨_, s, _, act_tick s, act_pcn_not_pending hp, act_pcn_not_pending hp, act_tick s⟩
  | true =>
    refine ⟨_, pcn s, _, act_tick s, act_pcn_pending hp, act_pcn_pending hp, ?_⟩
    rw [act_tick, pcn_tick_comm]

/-! The pulse. -/

/-- Settles O44: each column's waveform leaves out some of the six durations, whose sum is below T_TICK. -/
theorem pulseFitsInOneTick : Obligations.PulseFitsInOneTick := by
  intro d p
  obtain ⟨-, hsum⟩ := d.legal
  obtain ⟨c, r⟩ := p
  match c with
  | 0 => simpa [pulseWaveform_col0] using by omega
  | 1 => simpa [pulseWaveform_col1] using by omega
  | 2 => simpa [pulseWaveform_col2] using by omega

/-- Settles O45: BUS_OUT's one writer is the PCN step whose guard holds, and its pulse is the armed coordinate. -/
theorem pulseIffArmedColumnLow : Obligations.PulseIffArmedColumnLow := by
  intro m s t h
  constructor
  · constructor
    · intro hgrew
      rcases act_pulse h with ⟨-, hkept⟩ | ⟨p, hm, hp, hguard, -⟩
      · exact absurd hkept hgrew
      · obtain ⟨harm, -, hlow⟩ := (pcnGuard_eq_some_iff s p).1 hguard
        exact ⟨hm, hp, p.col, harm, hlow⟩
    · rintro ⟨rfl, hp, c, harm, hlow⟩
      rw [act_pcn_fired hp (pcnGuard_of_low harm hlow), Host.Outcome.next.injEq] at h
      rw [← h, firePulse_busOut]
      exact (ne_append_singleton s.busOut _).symm
  · rcases act_pulse h with ⟨-, hkept⟩ | ⟨p, -, -, hguard, -, hfired⟩
    · exact .inl hkept
    · obtain ⟨harm, hrow, -⟩ := (pcnGuard_eq_some_iff s p).1 hguard
      exact .inr ⟨p.col, harm, by rw [hfired, hrow]⟩

/-! Arming and disarming. -/

theorem armedCount_of_idle {s : State} (h : s.arm.col = none) : armedCount s = 0 :=
  if_pos ((idle_eq_true_iff s).2 h)

theorem armedCount_of_armed {s : State} {c : Col} (h : s.arm.col = some c) : armedCount s = 1 :=
  if_neg (by simp [idle, h])

theorem armedCount_congr {s t : State} (h : t.arm = s.arm) : armedCount t = armedCount s := by
  simp [armedCount, idle, h]

theorem selectCount_of_not_select {s t : State} (h : s.ph = .decode → t.ph ≠ .ack) : selectCount s t = 0 :=
  if_neg fun ⟨hs, ht⟩ => h hs ht

theorem selectCount_of_same_ph {s t : State} (h : t.ph = s.ph) : selectCount s t = 0 :=
  selectCount_of_not_select fun hs => by simp [h, hs]

/-- A pulse disarms, SELECT arms, and no other move writes ARM or BUS_OUT or goes from DECODE to ACK. -/
theorem act_arm_busOut_selectCount {m : Move} {s t : State} (h : act m s = .next t) :
    (t.arm = s.arm ∧ t.busOut = s.busOut ∧ selectCount s t = 0)
    ∨ (∃ p, pcnGuard s = some p ∧ t.arm.col = none ∧ t.busOut = s.busOut ++ [p] ∧ selectCount s t = 0)
    ∨ (s.arm.col = none ∧ (∃ c, t.arm.col = some c) ∧ t.busOut = s.busOut ∧ selectCount s t = 1) := by
  cases act_cases h with
  | pcnFired _ hg => exact .inr (.inl ⟨_, hg, rfl, rfl, selectCount_of_same_ph rfl⟩)
  | decodeSelect hx hi => exact .inr (.inr ⟨hi, ⟨_, rfl⟩, rfl, if_pos ⟨hx, rfl⟩⟩)
  | decodeNothing | decodeService | decodeIgnore =>
    exact .inl ⟨rfl, rfl, selectCount_of_not_select fun _ => Phase.noConfusion⟩
  | xfer hx | scanDrive hx | rowPassed hx | rowAccepted hx | scanRelease hx | ack hx | svcRelease hx =>
    exact .inl ⟨rfl, rfl, selectCount_of_not_select fun hs => by simp [hx] at hs⟩
  | _ => exact .inl ⟨rfl, rfl, selectCount_of_same_ph rfl⟩

/-- Settles O46: the pulse trades 1 armed for 1 pulse, SELECT adds 1 armed, and no other step changes either count. -/
theorem pulsesCountSelects : Obligations.PulsesCountSelects := by
  intro m s t h
  rcases act_arm_busOut_selectCount h with
    ⟨harm, hbus, hselect⟩ | ⟨p, hguard, hidle, hbus, hselect⟩ | ⟨hidle, ⟨c, harmed⟩, hbus, hselect⟩
  · rw [hselect, hbus, armedCount_congr harm]
    rfl
  · obtain ⟨harmed, -, -⟩ := (pcnGuard_eq_some_iff s p).1 hguard
    rw [hselect, hbus, armedCount_of_idle hidle, armedCount_of_armed harmed, List.length_append]
    rfl
  · rw [hselect, hbus, armedCount_of_idle hidle, armedCount_of_armed harmed]

/-- Settles O49: the two writers of ARM, one from idle and one from armed. -/
theorem armWrittenBySelectOrPulse : Obligations.ArmWrittenBySelectOrPulse := by
  intro m s t h
  rcases act_arm h with hkept | ⟨p, hm, hguard, hdisarm, -⟩ | ⟨k, b, p, hm, hph, hidle, hhead, hclass, harm, hack⟩
  · exact ⟨fun _ => .inl hkept, fun _ => .inl hkept⟩
  · obtain ⟨harmed, -, -⟩ := (pcnGuard_eq_some_iff s p).1 hguard
    refine ⟨fun hidle => ?_, fun _ => .inr ⟨hm, hdisarm⟩⟩
    rw [hidle] at harmed
    cases harmed
  · exact ⟨fun _ => .inr ⟨k, b, p, hm, hph, hhead, hclass, harm, hack⟩, fun harmed => absurd hidle harmed⟩

/-- Column c is armed, and the bus does not scan it. -/
def ArmedUnscanned (c : Col) (s : State) : Prop := s.arm.col = some c ∧ senseLine s.vmcColSense c = .high

/-- No move but the bus driving the armed column LOW brings the generator out of its wait. -/
theorem act_armedUnscanned {m : Move} {s t : State} {c : Col} (h : act m s = .next t) (hm : m ≠ .bus c .low)
    (hs : ArmedUnscanned c s) : ArmedUnscanned c t ∧ t.arm = s.arm ∧ t.busOut = s.busOut ∧ s.h2d <+: t.h2d := by
  obtain ⟨harmed, hhigh⟩ := hs
  have hguard : pcnGuard s = none := pcnGuard_of_high harmed hhigh
  obtain ⟨hh2d, -⟩ := armedWaitsForPulse m s t c h harmed
  have harm : t.arm = s.arm := by
    rcases act_arm h with hkept | ⟨p, -, hfires, -⟩ | ⟨_, _, _, -, -, hidle, -⟩
    · exact hkept
    · rw [hguard] at hfires
      cases hfires
    · rw [harmed] at hidle
      cases hidle
  have hbus : t.busOut = s.busOut := by
    rcases act_pulse h with ⟨-, hkept⟩ | ⟨p, -, -, hfires, -⟩
    · exact hkept
    · rw [hguard] at hfires
      cases hfires
  have hline : senseLine t.vmcColSense c = .high := by
    rcases act_vmcColSense h with hkept | ⟨c', l, rfl, hdriven⟩
    · rw [hkept, hhigh]
    · rw [hdriven, senseLine_driveLine_col]
      split
      next hc =>
        subst hc
        cases l with
        | high => rfl
        | low => exact absurd rfl hm
      next => exact hhigh
  refine ⟨⟨by rw [harm, harmed], hline⟩, harm, hbus, ?_⟩
  rcases hh2d with hkept | ⟨b, hgain⟩
  · rw [hkept]
  · rw [hgain]
    exact List.prefix_append s.h2d [b]

/-- Settles O48, by induction on the moves: the column stays armed and unscanned. -/
theorem armedForeverWhileColumnHigh : Obligations.ArmedForeverWhileColumnHigh := by
  intro ms
  induction ms with
  | nil =>
    intro s t c hrun _ _ _
    obtain rfl := runMoves_nil_iff.1 hrun
    exact ⟨rfl, rfl, List.prefix_rfl⟩
  | cons m ms ih =>
    intro s t c hrun harmed hhigh hms
    obtain ⟨u, hact, hrest⟩ := runMoves_cons_iff.1 hrun
    obtain ⟨⟨harmed', hhigh'⟩, harm, hbus, hh2d⟩ := act_armedUnscanned hact (hms m List.mem_cons_self) ⟨harmed, hhigh⟩
    obtain ⟨harmEnd, hbusEnd, hh2dEnd⟩ :=
      ih u t c hrest harmed' hhigh' (fun m' hm' => hms m' (List.mem_cons_of_mem m hm'))
    exact ⟨harmEnd.trans harm, hbusEnd.trans hbus, hh2d.trans hh2dEnd⟩

/-- Settles O55: DECODE's SELECT, then the pulse of the armed coordinate, then the acknowledgement. -/
theorem pulseMayPrecedeAck : Obligations.PulseMayPrecedeAck := by
  intro k k' s b q p hph hidle hq hclass hp hlow hroom
  obtain ⟨-, htaken⟩ := decodeStepEffect k s hph
  obtain ⟨hselect, -, -⟩ := htaken b q hq hidle
  have hfire := act_pcn_fired (s := { s with h2d := q, arm := ⟨some p.col, p.row⟩, ph := .ack }) hp
    (pcnGuard_of_low rfl hlow)
  exact ⟨_, _, _, hselect p hclass, hfire, ackEffect k' _ rfl, rfl, rfl, rfl, rfl, rfl, if_neg hroom, rfl⟩

/-! The bits of ARM. -/

/-- The fields of `armWord`, read back, for each of the 4 values of COL and the 7 of ROW. -/
theorem armWord_fields (col : Option Col) (row : Row) :
    ((armWord ⟨col, row⟩).extractLsb 4 3 = 3 ↔ col = none) ∧
      (∀ c, col = some c → ((armWord ⟨col, row⟩).extractLsb 4 3).toNat = c.val) ∧
      ((armWord ⟨col, row⟩).extractLsb 2 0).toNat = row.val := by
  revert col row
  decide

/-- Settles O56: the fields can be read back, so the bits determine them. -/
theorem armFieldsLegal : Obligations.ArmFieldsLegal := by
  refine ⟨fun a => armWord_fields a.col a.row, ?injective⟩
  case injective =>
    rintro ⟨col, row⟩ ⟨col', row'⟩ hword
    obtain ⟨hnone, hcol, hrow⟩ := armWord_fields col row
    obtain ⟨hnone', hcol', hrow'⟩ := armWord_fields col' row'
    rw [← hword] at hnone' hcol' hrow'
    have hrows : row = row' := Fin.ext (hrow.symm.trans hrow')
    have hcols : col = col' := by
      cases col with
      | none => exact (hnone'.1 (hnone.2 rfl)).symm
      | some c =>
        cases col' with
        | none => exact hnone.1 (hnone'.2 rfl)
        | some c' => exact congrArg some (Fin.ext ((hcol c rfl).symm.trans (hcol' c' rfl)))
    rw [hrows, hcols]

end Sys2Proof.Machine
end
